-- ==== Sys2Proof/Word.lean ====
section
/-! DEFINITION. The bit-vector types of the block: a byte (00_scope.md R9), a 64-bit container (42_value.md R201,
also the model's host data path, log 6) and a command word (30_encoding.md R90). -/

namespace Sys2Proof

/-- A byte is 8 bits (R9). -/
abbrev Byte := BitVec 8

/-- A 64-bit container of the value file `V` (R31), and a value on the host's data path (log 6). -/
abbrev Word := BitVec 64

/-- The 16-bit word a host writes to `OPC` (R90). -/
abbrev CmdWord := BitVec 16

end Sys2Proof
end

