-- ==== Sys2Proof/Config.lean ====
section
/-! DEFINITION. The parameters of the block, 00_scope.md R8. The fixed ones are constants; the one argument,
`OK_STATES`, is the type `OkStates`, a value of which every `State` holds (log 4). -/

namespace Sys2Proof.Config

/-- `HEADER_SIZE`, bytes of a frame header. -/
@[simp] abbrev HEADER_SIZE : Nat := 7

/-- `MAX_PAYLOAD`, bytes. -/
@[simp] abbrev MAX_PAYLOAD : Nat := 252

/-- `STATE_REQ`, the `state` byte of every request. -/
@[simp] abbrev STATE_REQ : Byte := 0xFD#8

/-- `CRC_POLY_REFLECTED`, 0x31 bit-reversed (R130). -/
@[simp] abbrev CRC_POLY_REFLECTED : Byte := 0x8C#8

/-- `CRC_INIT` (R131). -/
@[simp] abbrev CRC_INIT : Byte := 0x00#8

/-- `FB_SIZE`, bytes of the frame buffer: 7 + 255 (R32). -/
@[simp] abbrev FB_SIZE : Nat := 262

/-- `PB_SIZE`, bytes of the payload buffer: `MAX_PAYLOAD` (R33). -/
@[simp] abbrev PB_SIZE : Nat := 252

/-- `V_COUNT`, registers of the value file (R31). -/
@[simp] abbrev V_COUNT : Nat := 252

/-- `OK_STATES` (R8, R98): the set of accepted `state` bytes. It always holds 0x00, so only the other members
are listed; a `state` byte is accepted when it is 0x00 or listed (`okState`, Machine/Ops.lean). -/
structure OkStates where
  /-- The accepted codes beside 0x00. -/
  extra : List Byte
  deriving DecidableEq, Repr

/-- The default {0x00, 0xFD} of R8 (decision D10). -/
def defaultOkStates : OkStates := ⟨[0xFD#8]⟩

end Sys2Proof.Config
end

