-- ==== Sys2Proof/Syntax.lean ====
section
/-! DEFINITION. The commands, one constructor per row of spec/opcode_table.json (30_encoding.md R92), with the
operands the argument byte carries (R93). The scalar types are those of R104. -/

namespace Sys2Proof

/-- The buffer the bit `s` of `CRC.CALC` and `CRC.CHECK` selects: 0 is `FB`, 1 is `PB` (R93). -/
inductive Buf where
  | fb
  | pb
  deriving DecidableEq, Repr

/-- The scalar types, in the order of their `T` values 0x00 to 0x07 (R104). -/
inductive ScalarType where
  | u8 | i8 | u16 | i16 | u32 | i32 | f32 | f64
  deriving DecidableEq, Repr

/-- The commands. `arr` is the array bit `A` of the type tag (R103). The rows of one reserved-tag command are
one constructor each; `t` is the field `T`, whose range in the row `WellFormed.lean` checks (log 12). -/
inductive Instr where
  /-- `NOP`, R250. -/
  | nop
  /-- `RST`, R251. -/
  | rst
  /-- `CRC.CLR`, R136. -/
  | crcClr
  /-- `CRC.UPD b`, R137. -/
  | crcUpd (b : Byte)
  /-- `CRC.CMP b`, R138. -/
  | crcCmp (b : Byte)
  /-- `CRC.CALC s`, R139. -/
  | crcCalc (s : Buf)
  /-- `CRC.CHECK s`, R140. -/
  | crcCheck (s : Buf)
  /-- `HDR.PACK`, R165. -/
  | hdrPack
  /-- `HDR.UNPACK`, R166. -/
  | hdrUnpack
  /-- `DAT.PACK`, R167. -/
  | datPack
  /-- `DAT.UNPACK`, R168. -/
  | datUnpack
  /-- `FRM.ENC`, R170. -/
  | frmEnc
  /-- `FRM.DEC`, R173. -/
  | frmDec
  /-- `VAL.ENC.U8`, R212. -/
  | valEncU8 (arr : Bool)
  /-- `VAL.ENC.I8`, R213. -/
  | valEncI8 (arr : Bool)
  /-- `VAL.ENC.U16`, R214. -/
  | valEncU16 (arr : Bool)
  /-- `VAL.ENC.I16`, R215. -/
  | valEncI16 (arr : Bool)
  /-- `VAL.ENC.U32`, R216. -/
  | valEncU32 (arr : Bool)
  /-- `VAL.ENC.I32`, R217. -/
  | valEncI32 (arr : Bool)
  /-- `VAL.ENC.F32`, R218. -/
  | valEncF32 (arr : Bool)
  /-- `VAL.ENC.F64`, R219. -/
  | valEncF64 (arr : Bool)
  /-- `VAL.DEC.U8`, R220. -/
  | valDecU8 (arr : Bool)
  /-- `VAL.DEC.I8`, R221. -/
  | valDecI8 (arr : Bool)
  /-- `VAL.DEC.U16`, R222. -/
  | valDecU16 (arr : Bool)
  /-- `VAL.DEC.I16`, R223. -/
  | valDecI16 (arr : Bool)
  /-- `VAL.DEC.U32`, R224. -/
  | valDecU32 (arr : Bool)
  /-- `VAL.DEC.I32`, R225. -/
  | valDecI32 (arr : Bool)
  /-- `VAL.DEC.F32`, R226. -/
  | valDecF32 (arr : Bool)
  /-- `VAL.DEC.F64`, R227. -/
  | valDecF64 (arr : Bool)
  /-- `VAL.ENC.RSVD`, the row `T` in 0x08..0x0F, R228. -/
  | valEncRsvd08 (arr : Bool) (t : BitVec 7)
  /-- `VAL.ENC.RSVD`, the row `T` in 0x10..0x1F, R228. -/
  | valEncRsvd10 (arr : Bool) (t : BitVec 7)
  /-- `VAL.ENC.RSVD`, the row `T` in 0x20..0x3F, R228. -/
  | valEncRsvd20 (arr : Bool) (t : BitVec 7)
  /-- `VAL.ENC.RSVD`, the row `T` in 0x40..0x7F, R228. -/
  | valEncRsvd40 (arr : Bool) (t : BitVec 7)
  /-- `VAL.DEC.RSVD`, the row `T` in 0x08..0x0F, R228. -/
  | valDecRsvd08 (arr : Bool) (t : BitVec 7)
  /-- `VAL.DEC.RSVD`, the row `T` in 0x10..0x1F, R228. -/
  | valDecRsvd10 (arr : Bool) (t : BitVec 7)
  /-- `VAL.DEC.RSVD`, the row `T` in 0x20..0x3F, R228. -/
  | valDecRsvd20 (arr : Bool) (t : BitVec 7)
  /-- `VAL.DEC.RSVD`, the row `T` in 0x40..0x7F, R228. -/
  | valDecRsvd40 (arr : Bool) (t : BitVec 7)
  deriving DecidableEq, Repr

end Sys2Proof
end

