-- ==== Sys2Proof/Machine/State.lean ====
section
/-! DEFINITION. The state of the block (10_state.md R20), the host's accesses (20_memory.md R61), the error names
(60_exceptions.md R271), the outcomes' reason types, and the state after reset (10_state.md R39). -/

namespace Sys2Proof.Machine

open Sys2Proof.Config (OkStates)

/-- A space of units of `w` bits by index: (index, value) pairs, indices strictly rising, no value 0; an unlisted
index reads 0 (log 10). -/
abbrev Cells (w : Nat) := List (Nat × BitVec w)

/-- A byte space: a list of `Host.Cell`. -/
abbrev Memory := List Host.Cell

/-- The five spaces a host access names (R60). -/
inductive Space where
  | reg | v | fb | pb | tbl
  deriving DecidableEq, Repr

/-- One act of the world outside on the block, in the order of R70. -/
inductive Access where
  /-- `HostRead(space, index)` (R61). -/
  | read (sp : Space) (k : Nat)
  /-- `HostWrite(space, index, value)` (R61); of `REG` number 0x00 it issues a command (R28). -/
  | write (sp : Space) (k : Nat) (x : Word)
  /-- The platform asserts the hardware reset (R310; log 8). -/
  | hwReset
  deriving DecidableEq, Repr

/-- The names of the errors a command reports in `ERR` (R271); their codes are `Err.code`, Machine/Ops.lean. -/
inductive Err where
  | badHeaderCrc
  | badDataCrc
  | oversize
  | lengthFieldMismatch
  | deviceStatus
  | lengthMismatch
  | notWritable
  | badTypeTag
  | valueRange
  | bufRange
  | illegalOp
  deriving DecidableEq, Repr

/-- Reasons the machine stops. There is none: an error of a command is an outcome the block reports in `ERR` and
`EINFO`, after which it is ready for the next access (R270, R287), so it is a next state. -/
inductive Fault where
  deriving DecidableEq, Repr

/-- Reasons the model gives an instruction no meaning. -/
inductive Refusal where
  /-- Raised by an arm of `exec` whose instruction has no meaning; no arm raises it. Safe: it would stop the run. -/
  | notModelled (mnemonic : String)
  deriving DecidableEq, Repr

/-- The state: the 18 registers, `V`, `FB` and `PB` of R20 under the spec's names, and the model's own fields
`okStates`, `pending` and `returned`. `OPC` stores nothing (R28) and `TBL` is a constant (R34; log 5). -/
structure State where
  /-- Error code of the most recent command (R29). -/
  ERR : Byte
  /-- Detail of the error (R29). -/
  EINFO : Byte
  /-- The condition flag (R27). -/
  EQ : BitVec 1
  /-- The CRC accumulator (R26). -/
  ACC : Byte
  /-- Header field `state` (R22). -/
  STATE : Byte
  /-- Header field `cmd` (R22). -/
  CMD : Byte
  /-- Header field `length` (R22). -/
  LEN : Byte
  /-- Header field `serial` (R22). -/
  SERIAL : BitVec 24
  /-- Header CRC (R23). -/
  HCRC : Byte
  /-- Data-block CRC (R23). -/
  DCRC : Byte
  /-- A data block is present (R24). -/
  DPRES : BitVec 1
  /-- Payload length (R24). -/
  PLEN : BitVec 8
  /-- Frame length (R24). -/
  FLEN : BitVec 9
  /-- Buffer offset operand (R25). -/
  OFF : BitVec 9
  /-- Byte count operand (R25). -/
  CNT : BitVec 9
  /-- `byte_length` operand (R30). -/
  BLEN : BitVec 8
  /-- `access` operand, 1 for read-write (R30). -/
  WEN : BitVec 1
  /-- Value count (R30). -/
  VCNT : BitVec 8
  /-- The value register file (R31). -/
  V : Cells 64
  /-- The frame buffer (R32). -/
  FB : Memory
  /-- The payload buffer (R33). -/
  PB : Memory
  /-- The parameter `OK_STATES` (R8; log 4): no step changes it. -/
  okStates : OkStates
  /-- The accesses still to be served, in the order they are issued (R70; log 1). -/
  pending : List Access
  /-- What the served host reads returned, newest first (R253; log 2). -/
  returned : List Word
  deriving DecidableEq, Repr

/-- The state after reset: every register and buffer at the value of R39, the default `OK_STATES`, no access. -/
def State.reset : State where
  ERR := 0x00#8
  EINFO := 0x00#8
  EQ := 0#1
  ACC := 0x00#8
  STATE := 0x00#8
  CMD := 0x00#8
  LEN := 0x00#8
  SERIAL := 0x000000#24
  HCRC := 0x00#8
  DCRC := 0x00#8
  DPRES := 0#1
  PLEN := 0#8
  FLEN := 0#9
  OFF := 0#9
  CNT := 0#9
  BLEN := 0#8
  WEN := 0#1
  VCNT := 0#8
  V := []
  FB := []
  PB := []
  okStates := Config.defaultOkStates
  pending := []
  returned := []

end Sys2Proof.Machine
end

