-- ==== Sys2Proof/Machine/Ops.lean ====
section
/-! DEFINITION. The named operations over the spaces and the registers: reading and writing a space, the two
ways a command ends (`succeed` and `raise`, 60_exceptions.md R272), and the effect of reset (R310). -/

namespace Sys2Proof.Machine

/-- The unit at index `k`; an unlisted index reads 0 (R39; log 10). -/
def Cells.read {w : Nat} : Cells w → Nat → BitVec w
  | [], _ => 0#w
  | (j, x) :: m, k => if j = k then x else Cells.read m k

/-- Puts the cell `(k, x)` before the first cell above `k`. -/
def Cells.insert {w : Nat} (k : Nat) (x : BitVec w) : Cells w → Cells w
  | [] => [(k, x)]
  | (j, y) :: m => if k < j then (k, x) :: (j, y) :: m else (j, y) :: Cells.insert k x m

/-- Takes every cell of index `k` out. -/
def Cells.erase {w : Nat} (k : Nat) : Cells w → Cells w
  | [] => []
  | (j, y) :: m => if j = k then Cells.erase k m else (j, y) :: Cells.erase k m

/-- The space with `x` at index `k`; writing 0 takes the entry out, so the canonical form is kept. -/
def Cells.write {w : Nat} (m : Cells w) (k : Nat) (x : BitVec w) : Cells w :=
  if x = 0#w then Cells.erase k m else Cells.insert k x (Cells.erase k m)

/-- The canonical form from index `lo` on: indices strictly rising, at least `lo` and below `size`, no value 0. -/
def Cells.wfFrom {w : Nat} (lo size : Nat) : Cells w → Bool
  | [] => true
  | (k, x) :: m => decide (lo ≤ k) && decide (k < size) && decide (x ≠ 0#w) && Cells.wfFrom (k + 1) size m

/-- The canonical form of a space of `size` units. -/
def Cells.wf {w : Nat} (size : Nat) (m : Cells w) : Bool := Cells.wfFrom 0 size m

/-- The canonical form of a byte space of `size` bytes: every list of `Host.Cell` of that form is the only one
with its contents. -/
def Memory.wf (size : Nat) (m : Memory) : Bool := Cells.wf size m

/-- `S[k]`, one byte (R12). -/
def Memory.read (m : Memory) (k : Nat) : Byte := Cells.read m k

/-- `S[k] <- b`, one byte (R12). -/
def Memory.write (m : Memory) (k : Nat) (b : Byte) : Memory := Cells.write m k b

/-- `MemRead(S, a, n)`: the bytes at `a .. a+n-1` (R12). -/
def Memory.readBlock (m : Memory) (a : Nat) : Nat → List Byte
  | 0 => []
  | n + 1 => Memory.read m a :: Memory.readBlock m (a + 1) n

/-- `MemWrite(S, a, len(s), s)`: the bytes of `s` at `a` on (R12). -/
def Memory.writeBlock (m : Memory) (a : Nat) : List Byte → Memory
  | [] => m
  | b :: bs => Memory.writeBlock (Memory.write m a b) (a + 1) bs

/-- `s[i..j]`, both ends included, empty when `j < i` (R10). -/
def sub (s : List Byte) (i j : Nat) : List Byte := (s.drop i).take (j + 1 - i)

/-- `state in OK_STATES` (R98): 0x00 always is. -/
def okState (o : Config.OkStates) (b : Byte) : Bool := b == 0x00#8 || o.extra.contains b

/-- The code of an error in `ERR` (R271). -/
def Err.code : Err → Byte
  | .badHeaderCrc => 0x01#8
  | .badDataCrc => 0x02#8
  | .oversize => 0x03#8
  | .lengthFieldMismatch => 0x04#8
  | .deviceStatus => 0x05#8
  | .lengthMismatch => 0x06#8
  | .notWritable => 0x07#8
  | .badTypeTag => 0x08#8
  | .valueRange => 0x09#8
  | .bufRange => 0x0A#8
  | .illegalOp => 0x0B#8

/-- `raise E(info)`, the block's whole exception entry (R272, R287): `ERR` and `EINFO` are written, nothing else. -/
def State.raise (e : Err) (info : Byte) (s : State) : State :=
  { s with ERR := Err.code e, EINFO := info }

/-- The end of a command without error (R272). It is also all there is to a return from an error: nothing was
entered, and the next command overwrites `ERR` and `EINFO` with its own outcome (R288). -/
def State.succeed (s : State) : State := { s with ERR := 0x00#8, EINFO := 0x00#8 }

/-- A command that ends with an error. -/
def fail (e : Err) (info : Byte) (s : State) : Host.Outcome State Fault Refusal := .next (State.raise e info s)

/-- A command that succeeds, `s` being the state with its writes made. -/
def done (s : State) : Host.Outcome State Fault Refusal := .next (State.succeed s)

/-- The effect of reset (R251, R310): every register, `V`, `FB` and `PB` takes its reset value of R39. The
parameter, the accesses and the host's record are not the block's state (R20) and stay. -/
def State.clear (s : State) : State :=
  { State.reset with okStates := s.okStates, pending := s.pending, returned := s.returned }

end Sys2Proof.Machine
end

