-- ==== Sys2Proof/Machine/Operands.lean ====
section
/-! DEFINITION. Operand forms: little-endian bytes (00_scope.md R10), the buffer range of `CRC.CALC` and
`CRC.CHECK` (40_crc.md R139), and the scalars of the value unit (42_value.md R201 to R205). -/

namespace Sys2Proof.Machine

/-- The `n` low bytes of `v`, least significant first; `le_N(v)` is `leBytes (N/8) v` (R10). -/
def leBytes {w : Nat} : Nat → BitVec w → List Byte
  | 0, _ => []
  | n + 1, v => v.setWidth 8 :: leBytes n (v >>> 8)

/-- `from_le(s)`: the number whose byte `k` is `s[k]` (R10). -/
def fromLe : List Byte → Nat
  | [] => 0
  | b :: s => b.toNat + 256 * fromLe s

/-- The buffer `B` that `s` selects (R139). -/
def bufOf (b : Buf) (s : State) : Memory :=
  match b with
  | .fb => s.FB
  | .pb => s.PB

/-- Its valid length `L` (R139). -/
def bufLen (b : Buf) (s : State) : Nat :=
  match b with
  | .fb => s.FLEN.toNat
  | .pb => s.PLEN.toNat

/-- Its size `SIZE` (R139). -/
def bufSize : Buf → Nat
  | .fb => Config.FB_SIZE
  | .pb => Config.PB_SIZE

/-- The test of R139 and R140 that raises `BufRange`: `L > SIZE or OFF + CNT > L`. -/
def rangeOutside (b : Buf) (s : State) : Bool :=
  decide (bufSize b < bufLen b s) || decide (bufLen b s < s.OFF.toNat + s.CNT.toNat)

/-- `size(T)`, bytes of one element on the wire (R202). -/
def ScalarType.size : ScalarType → Nat
  | .u8 | .i8 => 1
  | .u16 | .i16 => 2
  | .u32 | .i32 | .f32 => 4
  | .f64 => 8

/-- `bits(T) = 8 * size(T)` (R202). -/
def ScalarType.bits (t : ScalarType) : Nat := 8 * ScalarType.size t

/-- The container is the sign extension of its used bits; of the other types the zero extension (R201). -/
def ScalarType.signed : ScalarType → Bool
  | .i8 | .i16 | .i32 => true
  | .u8 | .u16 | .u32 | .f32 | .f64 => false

/-- The 64-bit container of the used bits (R201, R205): floats are bit patterns (R208). -/
def ScalarType.extend (t : ScalarType) (x : BitVec (ScalarType.bits t)) : Word :=
  if ScalarType.signed t then x.signExtend 64 else x.setWidth 64

/-- The container is canonical for the type (R201): it is the extension of its used low bits. -/
def ScalarType.canonical (t : ScalarType) (v : Word) : Bool :=
  decide (v = ScalarType.extend t (v.setWidth (ScalarType.bits t)))

/-- `enc_T(v)` (R204). -/
def ScalarType.enc (t : ScalarType) (v : Word) : List Byte := leBytes (ScalarType.size t) v

/-- `dec_T(s)` (R205). -/
def ScalarType.dec (t : ScalarType) (s : List Byte) : Word :=
  ScalarType.extend t (BitVec.ofNat (ScalarType.bits t) (fromLe s))

/-- The element count of R203; `none` where R203 raises `LengthMismatch`. -/
def elementCount (t : ScalarType) (arr : Bool) (blen : Nat) : Option Nat :=
  if blen % ScalarType.size t ≠ 0 then none
  else if arr = false ∧ blen / ScalarType.size t ≠ 1 then none
  else some (blen / ScalarType.size t)

/-- Every one of `V[0..n-1]` is canonical (R210). -/
def allCanonical (t : ScalarType) (v : Cells 64) : Nat → Bool
  | 0 => true
  | n + 1 => allCanonical t v n && ScalarType.canonical t (Cells.read v n)

/-- The loop of R210: for `i = 0 .. n-1`, `MemWrite(PB, off + i*size(T), size(T), enc_T(V[i]))`. -/
def storeElements (t : ScalarType) (v : Cells 64) (off : Nat) (pb : Memory) : Nat → Memory
  | 0 => pb
  | n + 1 =>
    Memory.writeBlock (storeElements t v off pb n) (off + n * ScalarType.size t) (ScalarType.enc t (Cells.read v n))

/-- The loop of R211: for `i = 0 .. n-1`, `V[i] <- dec_T(MemRead(PB, off + i*size(T), size(T)))`. -/
def loadElements (t : ScalarType) (pb : Memory) (off : Nat) (v : Cells 64) : Nat → Cells 64
  | 0 => v
  | n + 1 =>
    Cells.write (loadElements t pb off v n) n
      (ScalarType.dec t (Memory.readBlock pb (off + n * ScalarType.size t) (ScalarType.size t)))

end Sys2Proof.Machine
end

