-- ==== Sys2Proof/Machine/Flags.lean ====
section
/-! DEFINITION. The one condition flag `EQ` (10_state.md R27) and the presence flag `DPRES` (R24). -/

namespace Sys2Proof.Machine

/-- `EQ` of `CRC.CMP b`: 1 when the accumulator is `b` (40_crc.md R138). -/
def cmpFlag (acc b : Byte) : BitVec 1 := if acc = b then 1#1 else 0#1

/-- `ACC` and `EQ` of `CRC.CHECK` on the bytes of the range (40_crc.md R140): of no bytes 0x00 and 0, else the
`crc8` of the bytes before the trailing one, compared with it. -/
def checkFlag (range : List Byte) : Byte × BitVec 1 :=
  match range.getLast? with
  | none => (0x00#8, 0#1)
  | some c => (crc8 range.dropLast, cmpFlag (crc8 range.dropLast) c)

/-- `DPRES` says whether a data block is present (R24). -/
def dataPresent (s : State) : Bool := s.DPRES == 1#1

end Sys2Proof.Machine
end

