-- ==== Sys2Proof/Machine/Crc.lean ====
section
/-! DEFINITION. The commands of the CRC unit (40_crc.md). -/

namespace Sys2Proof.Machine

/-- `CRC.CLR`, R136. -/
def execCrcClr (s : State) : Host.Outcome State Fault Refusal := done { s with ACC := Config.CRC_INIT }

/-- `CRC.UPD b`, R137. -/
def execCrcUpd (b : Byte) (s : State) : Host.Outcome State Fault Refusal :=
  done { s with ACC := crcStep s.ACC b }

/-- `CRC.CMP b`, R138. -/
def execCrcCmp (b : Byte) (s : State) : Host.Outcome State Fault Refusal :=
  done { s with EQ := cmpFlag s.ACC b }

/-- The bytes `MemRead(B, OFF, CNT)` of R139. -/
def rangeBytes (b : Buf) (s : State) : List Byte := Memory.readBlock (bufOf b s) s.OFF.toNat s.CNT.toNat

/-- `CRC.CALC s`, R139. -/
def execCrcCalc (b : Buf) (s : State) : Host.Outcome State Fault Refusal :=
  if rangeOutside b s then fail .bufRange 0x00#8 s
  else done { s with ACC := crc8 (rangeBytes b s) }

/-- `CRC.CHECK s`, R140. -/
def execCrcCheck (b : Buf) (s : State) : Host.Outcome State Fault Refusal :=
  if rangeOutside b s then fail .bufRange 0x00#8 s
  else done { s with ACC := (checkFlag (rangeBytes b s)).1, EQ := (checkFlag (rangeBytes b s)).2 }

end Sys2Proof.Machine
end

