-- ==== Sys2Proof/Machine/Frame.lean ====
section
/-! DEFINITION. The frame unit (41_frame.md): the codec as functions on byte sequences, then its commands. -/

namespace Sys2Proof.Machine

/-- `hdr6`, the six header bytes before the CRC (R161). -/
def hdr6 (state cmd len : Byte) (serial : BitVec 24) : List Byte := [state, cmd, len] ++ leBytes 3 serial

/-- `hdr`, the seven header bytes (R161). -/
def hdr (state cmd len : Byte) (serial : BitVec 24) : List Byte :=
  hdr6 state cmd len serial ++ [crc8 (hdr6 state cmd len serial)]

/-- `blk(p)`, the data block (R162). -/
def blk (p : List Byte) : List Byte := p ++ [crc8 p]

/-- What `decode` returns (R169); `data` is `none` when there is no data block. -/
structure DecodedFrame where
  state : Byte
  cmd : Byte
  len : Byte
  serial : BitVec 24
  data : Option (List Byte)
  deriving DecidableEq, Repr

/-- `decode(f)` (R169), its steps in that order; a failure carries what `EINFO` receives (R173). -/
def decodeFrame (ok : Config.OkStates) (f : List Byte) : Except (Err × Byte) DecodedFrame :=
  if f.length < Config.HEADER_SIZE then .error (.lengthFieldMismatch, 0x00#8)
  else if !check (sub f 0 6) then .error (.badHeaderCrc, 0x00#8)
  else if !okState ok (f.getD 0 0#8) then .error (.deviceStatus, f.getD 0 0#8)
  else if f.length ≠ Config.HEADER_SIZE + (f.getD 2 0#8).toNat then .error (.lengthFieldMismatch, 0x00#8)
  else if f.getD 2 0#8 = 0#8 then
    .ok ⟨f.getD 0 0#8, f.getD 1 0#8, f.getD 2 0#8, BitVec.ofNat 24 (fromLe (sub f 3 5)), none⟩
  else if !check (sub f 7 (6 + (f.getD 2 0#8).toNat)) then .error (.badDataCrc, 0x00#8)
  else if Config.MAX_PAYLOAD < (f.getD 2 0#8).toNat - 1 then .error (.oversize, 0x00#8)
  else
    .ok ⟨f.getD 0 0#8, f.getD 1 0#8, f.getD 2 0#8, BitVec.ofNat 24 (fromLe (sub f 3 5)),
      some (sub f 7 (5 + (f.getD 2 0#8).toNat))⟩

/-- The writes of `HDR.PACK` (R165). -/
def packHeader (s : State) : State :=
  { s with
    FB := Memory.writeBlock s.FB 0 (hdr s.STATE s.CMD s.LEN s.SERIAL)
    HCRC := (hdr s.STATE s.CMD s.LEN s.SERIAL).getD 6 0#8
    FLEN := 7#9 }

/-- The payload `MemRead(PB, 0, PLEN)` (R167). -/
def payload (s : State) : List Byte := Memory.readBlock s.PB 0 s.PLEN.toNat

/-- The test of R167 and R170 that raises `Oversize`: `DPRES = 1 and PLEN > 252`. -/
def payloadTooLong (s : State) : Bool := dataPresent s && decide (Config.MAX_PAYLOAD < s.PLEN.toNat)

/-- The writes of `DAT.PACK` (R167). -/
def packData (s : State) : State :=
  if dataPresent s then
    { s with
      FB := Memory.writeBlock s.FB 7 (blk (payload s))
      DCRC := crc8 (payload s)
      FLEN := BitVec.ofNat 9 (8 + s.PLEN.toNat) }
  else { s with DCRC := 0x00#8, FLEN := 7#9 }

/-- `LEN` by the length rule (R163, R170). -/
def lengthField (s : State) : Byte := if dataPresent s then BitVec.ofNat 8 (s.PLEN.toNat + 1) else 0x00#8

/-- The header registers of a decoded header (R166, R173). -/
def unpackHeader (state cmd len : Byte) (serial : BitVec 24) (hcrc : Byte) (s : State) : State :=
  { s with STATE := state, CMD := cmd, LEN := len, SERIAL := serial, HCRC := hcrc }

/-- The payload registers and `PB` of a data block, or of none (R168, R173). -/
def unpackData (data : Option (List Byte)) (dcrc : Byte) (s : State) : State :=
  match data with
  | none => { s with DPRES := 0#1, PLEN := 0#8, DCRC := 0x00#8 }
  | some p =>
    { s with PB := Memory.writeBlock s.PB 0 p, PLEN := BitVec.ofNat 8 p.length, DPRES := 1#1, DCRC := dcrc }

/-- `HDR.PACK`, R165. -/
def execHdrPack (s : State) : Host.Outcome State Fault Refusal := done (packHeader s)

/-- `HDR.UNPACK`, R166. -/
def execHdrUnpack (s : State) : Host.Outcome State Fault Refusal :=
  if Config.FB_SIZE < s.FLEN.toNat then fail .bufRange 0x00#8 s
  else if s.FLEN.toNat < Config.HEADER_SIZE then fail .lengthFieldMismatch 0x00#8 s
  else
    let h := Memory.readBlock s.FB 0 7
    if !check h then fail .badHeaderCrc 0x00#8 s
    else
      done (unpackHeader (h.getD 0 0#8) (h.getD 1 0#8) (h.getD 2 0#8)
        (BitVec.ofNat 24 (fromLe (sub h 3 5))) (h.getD 6 0#8) s)

/-- `DAT.PACK`, R167. -/
def execDatPack (s : State) : Host.Outcome State Fault Refusal :=
  if payloadTooLong s then fail .oversize 0x00#8 s else done (packData s)

/-- `DAT.UNPACK`, R168. -/
def execDatUnpack (s : State) : Host.Outcome State Fault Refusal :=
  if Config.FB_SIZE < s.FLEN.toNat then fail .bufRange 0x00#8 s
  else if s.FLEN.toNat ≠ Config.HEADER_SIZE + s.LEN.toNat then fail .lengthFieldMismatch 0x00#8 s
  else if s.LEN = 0#8 then done (unpackData none 0x00#8 s)
  else
    let d := Memory.readBlock s.FB 7 s.LEN.toNat
    if !check d then fail .badDataCrc 0x00#8 s
    else if Config.MAX_PAYLOAD < s.LEN.toNat - 1 then fail .oversize 0x00#8 s
    else done (unpackData (some d.dropLast) (d.getD (s.LEN.toNat - 1) 0#8) s)

/-- `FRM.ENC`, R170. -/
def execFrmEnc (s : State) : Host.Outcome State Fault Refusal :=
  if payloadTooLong s then fail .oversize 0x00#8 s
  else done (packData (packHeader { s with STATE := Config.STATE_REQ, LEN := lengthField s }))

/-- `FRM.DEC`, R173. -/
def execFrmDec (s : State) : Host.Outcome State Fault Refusal :=
  if Config.FB_SIZE < s.FLEN.toNat then fail .bufRange 0x00#8 s
  else
    let f := Memory.readBlock s.FB 0 s.FLEN.toNat
    match decodeFrame s.okStates f with
    | .error (e, info) => fail e info s
    | .ok r =>
      done (unpackData r.data (f.getD (6 + r.len.toNat) 0#8)
        (unpackHeader r.state r.cmd r.len r.serial (f.getD 6 0#8) s))

end Sys2Proof.Machine
end

