-- ==== Sys2Proof/Machine/System.lean ====
section
/-! DEFINITION. The system commands (43_system.md). -/

namespace Sys2Proof.Machine

/-- `NOP`, R250. -/
def execNop (s : State) : Host.Outcome State Fault Refusal := done s

/-- `RST`, R251. -/
def execRst (s : State) : Host.Outcome State Fault Refusal := done (State.clear s)

end Sys2Proof.Machine
end

