-- ==== Sys2Proof/Machine/Value.lean ====
section
/-! DEFINITION. The value unit (42_value.md): the two generic command rules R210 and R211, the reserved tags
R228, and one meaning per type and direction. -/

namespace Sys2Proof.Machine

/-- `VAL.ENC.<T>`, R210, for a defined type. Of `V[0..n-1]` the registers that exist are checked (log 9). -/
def valEnc (t : ScalarType) (arr : Bool) (s : State) : Host.Outcome State Fault Refusal :=
  match elementCount t arr s.BLEN.toNat with
  | none => fail .lengthMismatch 0x00#8 s
  | some n =>
    if s.VCNT.toNat ≠ n then fail .lengthMismatch 0x00#8 s
    else if s.WEN = 0#1 then fail .notWritable 0x00#8 s
    else if !allCanonical t s.V (min n Config.V_COUNT) then fail .valueRange 0x00#8 s
    else if Config.PB_SIZE < s.OFF.toNat + s.BLEN.toNat then fail .bufRange 0x00#8 s
    else done { s with PB := storeElements t s.V s.OFF.toNat s.PB n }

/-- `VAL.DEC.<T>`, R211, for a defined type. -/
def valDec (t : ScalarType) (arr : Bool) (s : State) : Host.Outcome State Fault Refusal :=
  match elementCount t arr s.BLEN.toNat with
  | none => fail .lengthMismatch 0x00#8 s
  | some n =>
    if Config.PB_SIZE < s.PLEN.toNat ∨ s.PLEN.toNat < s.OFF.toNat + s.BLEN.toNat then fail .bufRange 0x00#8 s
    else done { s with V := loadElements t s.PB s.OFF.toNat s.V n, VCNT := BitVec.ofNat 8 n }

/-- A command with a reserved tag, R228: `BadTypeTag` before any other check, with either value of `A`. -/
def valReserved (s : State) : Host.Outcome State Fault Refusal := fail .badTypeTag 0x00#8 s

/-- `VAL.ENC.U8`, R212. -/
def execValEncU8 (arr : Bool) (s : State) : Host.Outcome State Fault Refusal := valEnc .u8 arr s

/-- `VAL.ENC.I8`, R213. -/
def execValEncI8 (arr : Bool) (s : State) : Host.Outcome State Fault Refusal := valEnc .i8 arr s

/-- `VAL.ENC.U16`, R214. -/
def execValEncU16 (arr : Bool) (s : State) : Host.Outcome State Fault Refusal := valEnc .u16 arr s

/-- `VAL.ENC.I16`, R215. -/
def execValEncI16 (arr : Bool) (s : State) : Host.Outcome State Fault Refusal := valEnc .i16 arr s

/-- `VAL.ENC.U32`, R216. -/
def execValEncU32 (arr : Bool) (s : State) : Host.Outcome State Fault Refusal := valEnc .u32 arr s

/-- `VAL.ENC.I32`, R217. -/
def execValEncI32 (arr : Bool) (s : State) : Host.Outcome State Fault Refusal := valEnc .i32 arr s

/-- `VAL.ENC.F32`, R218. -/
def execValEncF32 (arr : Bool) (s : State) : Host.Outcome State Fault Refusal := valEnc .f32 arr s

/-- `VAL.ENC.F64`, R219. -/
def execValEncF64 (arr : Bool) (s : State) : Host.Outcome State Fault Refusal := valEnc .f64 arr s

/-- `VAL.DEC.U8`, R220. -/
def execValDecU8 (arr : Bool) (s : State) : Host.Outcome State Fault Refusal := valDec .u8 arr s

/-- `VAL.DEC.I8`, R221. -/
def execValDecI8 (arr : Bool) (s : State) : Host.Outcome State Fault Refusal := valDec .i8 arr s

/-- `VAL.DEC.U16`, R222. -/
def execValDecU16 (arr : Bool) (s : State) : Host.Outcome State Fault Refusal := valDec .u16 arr s

/-- `VAL.DEC.I16`, R223. -/
def execValDecI16 (arr : Bool) (s : State) : Host.Outcome State Fault Refusal := valDec .i16 arr s

/-- `VAL.DEC.U32`, R224. -/
def execValDecU32 (arr : Bool) (s : State) : Host.Outcome State Fault Refusal := valDec .u32 arr s

/-- `VAL.DEC.I32`, R225. -/
def execValDecI32 (arr : Bool) (s : State) : Host.Outcome State Fault Refusal := valDec .i32 arr s

/-- `VAL.DEC.F32`, R226. -/
def execValDecF32 (arr : Bool) (s : State) : Host.Outcome State Fault Refusal := valDec .f32 arr s

/-- `VAL.DEC.F64`, R227. -/
def execValDecF64 (arr : Bool) (s : State) : Host.Outcome State Fault Refusal := valDec .f64 arr s

/-- `VAL.ENC.RSVD`, the row `T` in 0x08..0x0F, R228. -/
def execValEncRsvd08 (s : State) : Host.Outcome State Fault Refusal := valReserved s

/-- `VAL.ENC.RSVD`, the row `T` in 0x10..0x1F, R228. -/
def execValEncRsvd10 (s : State) : Host.Outcome State Fault Refusal := valReserved s

/-- `VAL.ENC.RSVD`, the row `T` in 0x20..0x3F, R228. -/
def execValEncRsvd20 (s : State) : Host.Outcome State Fault Refusal := valReserved s

/-- `VAL.ENC.RSVD`, the row `T` in 0x40..0x7F, R228. -/
def execValEncRsvd40 (s : State) : Host.Outcome State Fault Refusal := valReserved s

/-- `VAL.DEC.RSVD`, the row `T` in 0x08..0x0F, R228. -/
def execValDecRsvd08 (s : State) : Host.Outcome State Fault Refusal := valReserved s

/-- `VAL.DEC.RSVD`, the row `T` in 0x10..0x1F, R228. -/
def execValDecRsvd10 (s : State) : Host.Outcome State Fault Refusal := valReserved s

/-- `VAL.DEC.RSVD`, the row `T` in 0x20..0x3F, R228. -/
def execValDecRsvd20 (s : State) : Host.Outcome State Fault Refusal := valReserved s

/-- `VAL.DEC.RSVD`, the row `T` in 0x40..0x7F, R228. -/
def execValDecRsvd40 (s : State) : Host.Outcome State Fault Refusal := valReserved s

end Sys2Proof.Machine
end

