-- ==== Sys2Proof/Machine/Dispatch.lean ====
section
/-! DEFINITION. One arm per command, each one call of its meaning. -/

namespace Sys2Proof.Machine

def exec (i : Instr) (s : State) : Host.Outcome State Fault Refusal :=
  match i with
  | .nop => Sys2Proof.Machine.execNop s
  | .rst => Sys2Proof.Machine.execRst s
  | .crcClr => Sys2Proof.Machine.execCrcClr s
  | .crcUpd b => Sys2Proof.Machine.execCrcUpd b s
  | .crcCmp b => Sys2Proof.Machine.execCrcCmp b s
  | .crcCalc b => Sys2Proof.Machine.execCrcCalc b s
  | .crcCheck b => Sys2Proof.Machine.execCrcCheck b s
  | .hdrPack => Sys2Proof.Machine.execHdrPack s
  | .hdrUnpack => Sys2Proof.Machine.execHdrUnpack s
  | .datPack => Sys2Proof.Machine.execDatPack s
  | .datUnpack => Sys2Proof.Machine.execDatUnpack s
  | .frmEnc => Sys2Proof.Machine.execFrmEnc s
  | .frmDec => Sys2Proof.Machine.execFrmDec s
  | .valEncU8 arr => Sys2Proof.Machine.execValEncU8 arr s
  | .valEncI8 arr => Sys2Proof.Machine.execValEncI8 arr s
  | .valEncU16 arr => Sys2Proof.Machine.execValEncU16 arr s
  | .valEncI16 arr => Sys2Proof.Machine.execValEncI16 arr s
  | .valEncU32 arr => Sys2Proof.Machine.execValEncU32 arr s
  | .valEncI32 arr => Sys2Proof.Machine.execValEncI32 arr s
  | .valEncF32 arr => Sys2Proof.Machine.execValEncF32 arr s
  | .valEncF64 arr => Sys2Proof.Machine.execValEncF64 arr s
  | .valDecU8 arr => Sys2Proof.Machine.execValDecU8 arr s
  | .valDecI8 arr => Sys2Proof.Machine.execValDecI8 arr s
  | .valDecU16 arr => Sys2Proof.Machine.execValDecU16 arr s
  | .valDecI16 arr => Sys2Proof.Machine.execValDecI16 arr s
  | .valDecU32 arr => Sys2Proof.Machine.execValDecU32 arr s
  | .valDecI32 arr => Sys2Proof.Machine.execValDecI32 arr s
  | .valDecF32 arr => Sys2Proof.Machine.execValDecF32 arr s
  | .valDecF64 arr => Sys2Proof.Machine.execValDecF64 arr s
  | .valEncRsvd08 _ _ => Sys2Proof.Machine.execValEncRsvd08 s
  | .valEncRsvd10 _ _ => Sys2Proof.Machine.execValEncRsvd10 s
  | .valEncRsvd20 _ _ => Sys2Proof.Machine.execValEncRsvd20 s
  | .valEncRsvd40 _ _ => Sys2Proof.Machine.execValEncRsvd40 s
  | .valDecRsvd08 _ _ => Sys2Proof.Machine.execValDecRsvd08 s
  | .valDecRsvd10 _ _ => Sys2Proof.Machine.execValDecRsvd10 s
  | .valDecRsvd20 _ _ => Sys2Proof.Machine.execValDecRsvd20 s
  | .valDecRsvd40 _ _ => Sys2Proof.Machine.execValDecRsvd40 s

end Sys2Proof.Machine
end

