-- ==== Sys2Proof/WellFormed.lean ====
section
/-! DEFINITION. Which terms of `Instr` are commands of the table: an operand outside its row's range is refused.
Only the reserved-tag rows restrict an operand beyond its type (30_encoding.md R92). -/

namespace Sys2Proof

/-- `T` lies in `lo..hi`, both included. -/
def tagInRow (lo hi : Nat) (t : BitVec 7) : Bool := decide (lo ≤ t.toNat) && decide (t.toNat ≤ hi)

/-- The instruction is one its row of R92 encodes. -/
def Instr.wellFormed : Instr → Bool
  | .nop => true
  | .rst => true
  | .crcClr => true
  | .crcUpd _ => true
  | .crcCmp _ => true
  | .crcCalc _ => true
  | .crcCheck _ => true
  | .hdrPack => true
  | .hdrUnpack => true
  | .datPack => true
  | .datUnpack => true
  | .frmEnc => true
  | .frmDec => true
  | .valEncU8 _ => true
  | .valEncI8 _ => true
  | .valEncU16 _ => true
  | .valEncI16 _ => true
  | .valEncU32 _ => true
  | .valEncI32 _ => true
  | .valEncF32 _ => true
  | .valEncF64 _ => true
  | .valDecU8 _ => true
  | .valDecI8 _ => true
  | .valDecU16 _ => true
  | .valDecI16 _ => true
  | .valDecU32 _ => true
  | .valDecI32 _ => true
  | .valDecF32 _ => true
  | .valDecF64 _ => true
  | .valEncRsvd08 _ t => tagInRow 0x08 0x0F t
  | .valEncRsvd10 _ t => tagInRow 0x10 0x1F t
  | .valEncRsvd20 _ t => tagInRow 0x20 0x3F t
  | .valEncRsvd40 _ t => tagInRow 0x40 0x7F t
  | .valDecRsvd08 _ t => tagInRow 0x08 0x0F t
  | .valDecRsvd10 _ t => tagInRow 0x10 0x1F t
  | .valDecRsvd20 _ t => tagInRow 0x20 0x3F t
  | .valDecRsvd40 _ t => tagInRow 0x40 0x7F t

end Sys2Proof
end

