-- ==== Sys2Proof/Decode.lean ====
section
/-! DEFINITION. The decoder and the encoder of command words, both written from the opcode map 30_encoding.md
R92. Decoding reads nothing but the word (R91); it is total, and a word of no row is rejected by name (R107). -/

namespace Sys2Proof

/-- Why a word is no command: the three kinds of illegal word that R107 lists. -/
inductive Illegal where
  /-- `op` is none of the fifteen operation codes. -/
  | undefinedOp
  /-- `op` takes no argument and `arg` is not 0x00. -/
  | argNotZero
  /-- `op` is 0x13 or 0x14 and `arg[7:1]` is not 0. -/
  | selectNotZero
  deriving DecidableEq, Repr

/-- The operation code `w[15:8]` (R90). -/
def CmdWord.op (w : CmdWord) : Byte := w.extractLsb' 8 8

/-- The argument byte `w[7:0]` (R90). -/
def CmdWord.arg (w : CmdWord) : Byte := w.extractLsb' 0 8

/-- The array bit `A = arg[7]` (R103). -/
def CmdWord.arr (w : CmdWord) : Bool := w.getLsbD 7

/-- The type field `T = arg[6:0]` (R103). -/
def CmdWord.t (w : CmdWord) : BitVec 7 := w.extractLsb' 0 7

/-- The buffer select `s = arg[0]` (R93). -/
def CmdWord.sel (w : CmdWord) : Buf := if w.getLsbD 0 then .pb else .fb

/-- One row of the opcode map: a word is the row's when `(w and mask) = pattern` (R91). -/
structure Row where
  /-- The row's `match` column. -/
  pattern : CmdWord
  /-- The row's `mask` column. -/
  mask : CmdWord
  /-- The command the row's words encode. -/
  build : CmdWord → Instr

/-- The word matches the row (R91). -/
def Row.hits (r : Row) (w : CmdWord) : Bool := w &&& r.mask == r.pattern

/-- The rows of the system and CRC units (R92). -/
def crcRows : List Row :=
  [ ⟨0x0000#16, 0xFFFF#16, fun _ => .nop⟩,
    ⟨0x0100#16, 0xFFFF#16, fun _ => .rst⟩,
    ⟨0x1000#16, 0xFFFF#16, fun _ => .crcClr⟩,
    ⟨0x1100#16, 0xFF00#16, fun w => .crcUpd (CmdWord.arg w)⟩,
    ⟨0x1200#16, 0xFF00#16, fun w => .crcCmp (CmdWord.arg w)⟩,
    ⟨0x1300#16, 0xFFFE#16, fun w => .crcCalc (CmdWord.sel w)⟩,
    ⟨0x1400#16, 0xFFFE#16, fun w => .crcCheck (CmdWord.sel w)⟩ ]

/-- The rows of the frame unit (R92). -/
def frameRows : List Row :=
  [ ⟨0x2000#16, 0xFFFF#16, fun _ => .hdrPack⟩,
    ⟨0x2100#16, 0xFFFF#16, fun _ => .hdrUnpack⟩,
    ⟨0x2200#16, 0xFFFF#16, fun _ => .datPack⟩,
    ⟨0x2300#16, 0xFFFF#16, fun _ => .datUnpack⟩,
    ⟨0x2400#16, 0xFFFF#16, fun _ => .frmEnc⟩,
    ⟨0x2500#16, 0xFFFF#16, fun _ => .frmDec⟩ ]

/-- The rows of `VAL.ENC` with a defined type (R92, R104). -/
def valEncRows : List Row :=
  [ ⟨0x3000#16, 0xFF7F#16, fun w => .valEncU8 (CmdWord.arr w)⟩,
    ⟨0x3001#16, 0xFF7F#16, fun w => .valEncI8 (CmdWord.arr w)⟩,
    ⟨0x3002#16, 0xFF7F#16, fun w => .valEncU16 (CmdWord.arr w)⟩,
    ⟨0x3003#16, 0xFF7F#16, fun w => .valEncI16 (CmdWord.arr w)⟩,
    ⟨0x3004#16, 0xFF7F#16, fun w => .valEncU32 (CmdWord.arr w)⟩,
    ⟨0x3005#16, 0xFF7F#16, fun w => .valEncI32 (CmdWord.arr w)⟩,
    ⟨0x3006#16, 0xFF7F#16, fun w => .valEncF32 (CmdWord.arr w)⟩,
    ⟨0x3007#16, 0xFF7F#16, fun w => .valEncF64 (CmdWord.arr w)⟩ ]

/-- The rows of `VAL.DEC` with a defined type (R92, R104). -/
def valDecRows : List Row :=
  [ ⟨0x3100#16, 0xFF7F#16, fun w => .valDecU8 (CmdWord.arr w)⟩,
    ⟨0x3101#16, 0xFF7F#16, fun w => .valDecI8 (CmdWord.arr w)⟩,
    ⟨0x3102#16, 0xFF7F#16, fun w => .valDecU16 (CmdWord.arr w)⟩,
    ⟨0x3103#16, 0xFF7F#16, fun w => .valDecI16 (CmdWord.arr w)⟩,
    ⟨0x3104#16, 0xFF7F#16, fun w => .valDecU32 (CmdWord.arr w)⟩,
    ⟨0x3105#16, 0xFF7F#16, fun w => .valDecI32 (CmdWord.arr w)⟩,
    ⟨0x3106#16, 0xFF7F#16, fun w => .valDecF32 (CmdWord.arr w)⟩,
    ⟨0x3107#16, 0xFF7F#16, fun w => .valDecF64 (CmdWord.arr w)⟩ ]

/-- The rows of `VAL.ENC` with a reserved tag (R92, R105). -/
def valEncRsvdRows : List Row :=
  [ ⟨0x3008#16, 0xFF78#16, fun w => .valEncRsvd08 (CmdWord.arr w) (CmdWord.t w)⟩,
    ⟨0x3010#16, 0xFF70#16, fun w => .valEncRsvd10 (CmdWord.arr w) (CmdWord.t w)⟩,
    ⟨0x3020#16, 0xFF60#16, fun w => .valEncRsvd20 (CmdWord.arr w) (CmdWord.t w)⟩,
    ⟨0x3040#16, 0xFF40#16, fun w => .valEncRsvd40 (CmdWord.arr w) (CmdWord.t w)⟩ ]

/-- The rows of `VAL.DEC` with a reserved tag (R92, R105). -/
def valDecRsvdRows : List Row :=
  [ ⟨0x3108#16, 0xFF78#16, fun w => .valDecRsvd08 (CmdWord.arr w) (CmdWord.t w)⟩,
    ⟨0x3110#16, 0xFF70#16, fun w => .valDecRsvd10 (CmdWord.arr w) (CmdWord.t w)⟩,
    ⟨0x3120#16, 0xFF60#16, fun w => .valDecRsvd20 (CmdWord.arr w) (CmdWord.t w)⟩,
    ⟨0x3140#16, 0xFF40#16, fun w => .valDecRsvd40 (CmdWord.arr w) (CmdWord.t w)⟩ ]

/-- The opcode map, 37 rows (R92). -/
def rows : List Row :=
  crcRows ++ frameRows ++ valEncRows ++ valDecRows ++ valEncRsvdRows ++ valDecRsvdRows

/-- The operation codes of commands without an argument (R107). -/
def opsWithoutArg : List Byte :=
  [0x00#8, 0x01#8, 0x10#8, 0x20#8, 0x21#8, 0x22#8, 0x23#8, 0x24#8, 0x25#8]

/-- The name of an illegal word's fault of form (R107); asked only of words that no row matches. -/
def illegalReason (w : CmdWord) : Illegal :=
  if CmdWord.op w ∈ opsWithoutArg then .argNotZero
  else if CmdWord.op w = 0x13#8 ∨ CmdWord.op w = 0x14#8 then .selectNotZero
  else .undefinedOp

/-- Decoding (R91): the first row that matches; the rows are disjoint, so it is the only one. -/
def decode (w : CmdWord) : Except Illegal Instr :=
  match rows.find? (fun r => r.hits w) with
  | some r => .ok (r.build w)
  | none => .error (illegalReason w)

/-- The type-tag byte `{A, T}` (R103). -/
def tagByte (arr : Bool) (t : BitVec 7) : Byte := BitVec.ofBool arr ++ t

/-- The argument byte of a buffer select (R93). -/
def selByte : Buf → Byte
  | .fb => 0x00#8
  | .pb => 0x01#8

/-- The word `{op, arg}` (R90). -/
def cmdWord (op arg : Byte) : CmdWord := op ++ arg

/-- The command word of an instruction, from the columns `op` and `arg` of R92. -/
def encode : Instr → CmdWord
  | .nop => cmdWord 0x00#8 0x00#8
  | .rst => cmdWord 0x01#8 0x00#8
  | .crcClr => cmdWord 0x10#8 0x00#8
  | .crcUpd b => cmdWord 0x11#8 b
  | .crcCmp b => cmdWord 0x12#8 b
  | .crcCalc s => cmdWord 0x13#8 (selByte s)
  | .crcCheck s => cmdWord 0x14#8 (selByte s)
  | .hdrPack => cmdWord 0x20#8 0x00#8
  | .hdrUnpack => cmdWord 0x21#8 0x00#8
  | .datPack => cmdWord 0x22#8 0x00#8
  | .datUnpack => cmdWord 0x23#8 0x00#8
  | .frmEnc => cmdWord 0x24#8 0x00#8
  | .frmDec => cmdWord 0x25#8 0x00#8
  | .valEncU8 arr => cmdWord 0x30#8 (tagByte arr 0x00#7)
  | .valEncI8 arr => cmdWord 0x30#8 (tagByte arr 0x01#7)
  | .valEncU16 arr => cmdWord 0x30#8 (tagByte arr 0x02#7)
  | .valEncI16 arr => cmdWord 0x30#8 (tagByte arr 0x03#7)
  | .valEncU32 arr => cmdWord 0x30#8 (tagByte arr 0x04#7)
  | .valEncI32 arr => cmdWord 0x30#8 (tagByte arr 0x05#7)
  | .valEncF32 arr => cmdWord 0x30#8 (tagByte arr 0x06#7)
  | .valEncF64 arr => cmdWord 0x30#8 (tagByte arr 0x07#7)
  | .valDecU8 arr => cmdWord 0x31#8 (tagByte arr 0x00#7)
  | .valDecI8 arr => cmdWord 0x31#8 (tagByte arr 0x01#7)
  | .valDecU16 arr => cmdWord 0x31#8 (tagByte arr 0x02#7)
  | .valDecI16 arr => cmdWord 0x31#8 (tagByte arr 0x03#7)
  | .valDecU32 arr => cmdWord 0x31#8 (tagByte arr 0x04#7)
  | .valDecI32 arr => cmdWord 0x31#8 (tagByte arr 0x05#7)
  | .valDecF32 arr => cmdWord 0x31#8 (tagByte arr 0x06#7)
  | .valDecF64 arr => cmdWord 0x31#8 (tagByte arr 0x07#7)
  | .valEncRsvd08 arr t => cmdWord 0x30#8 (tagByte arr t)
  | .valEncRsvd10 arr t => cmdWord 0x30#8 (tagByte arr t)
  | .valEncRsvd20 arr t => cmdWord 0x30#8 (tagByte arr t)
  | .valEncRsvd40 arr t => cmdWord 0x30#8 (tagByte arr t)
  | .valDecRsvd08 arr t => cmdWord 0x31#8 (tagByte arr t)
  | .valDecRsvd10 arr t => cmdWord 0x31#8 (tagByte arr t)
  | .valDecRsvd20 arr t => cmdWord 0x31#8 (tagByte arr t)
  | .valDecRsvd40 arr t => cmdWord 0x31#8 (tagByte arr t)

/-- The instruction the decoder reads from a table row's word. The command word is one 16-bit number (R64), bit 0
its least significant, as the table numbers it; every row has 16 bits. -/
def decodeTableWord (_nbits w : Nat) : Option Instr :=
  match decode (BitVec.ofNat 16 w) with
  | .ok i => some i
  | .error _ => none

end Sys2Proof
end

