-- ==== Sys2Proof/Machine/HostPort.lean ====
section
/-! DEFINITION. The host's accesses to the five spaces (43_system.md R253 to R257), and the illegal command word
(60_exceptions.md R282). -/

namespace Sys2Proof.Machine

/-- The value of register number `k` (the map of 10_state.md R35), zero extended (R253); number 0x00, `OPC`, reads
0x0000 (R28), and a number above 0x12 reads 0 (R257). -/
def State.readReg (s : State) (k : Nat) : Word :=
  match k with
  | 0x01 => s.ERR.setWidth 64
  | 0x02 => s.EINFO.setWidth 64
  | 0x03 => s.EQ.setWidth 64
  | 0x04 => s.ACC.setWidth 64
  | 0x05 => s.STATE.setWidth 64
  | 0x06 => s.CMD.setWidth 64
  | 0x07 => s.LEN.setWidth 64
  | 0x08 => s.SERIAL.setWidth 64
  | 0x09 => s.HCRC.setWidth 64
  | 0x0A => s.DCRC.setWidth 64
  | 0x0B => s.DPRES.setWidth 64
  | 0x0C => s.PLEN.setWidth 64
  | 0x0D => s.FLEN.setWidth 64
  | 0x0E => s.OFF.setWidth 64
  | 0x0F => s.CNT.setWidth 64
  | 0x10 => s.BLEN.setWidth 64
  | 0x11 => s.WEN.setWidth 64
  | 0x12 => s.VCNT.setWidth 64
  | _ => 0#64

/-- A host write to register number `k`: a writable register stores the low bits of its width (R36, R254); a write
to a read-only or absent number is ignored (R256, R257). Number 0x00 is a command issue (`commandOf`). -/
def State.writeReg (s : State) (k : Nat) (x : Word) : State :=
  match k with
  | 0x05 => { s with STATE := x.setWidth 8 }
  | 0x06 => { s with CMD := x.setWidth 8 }
  | 0x07 => { s with LEN := x.setWidth 8 }
  | 0x08 => { s with SERIAL := x.setWidth 24 }
  | 0x0B => { s with DPRES := x.setWidth 1 }
  | 0x0C => { s with PLEN := x.setWidth 8 }
  | 0x0D => { s with FLEN := x.setWidth 9 }
  | 0x0E => { s with OFF := x.setWidth 9 }
  | 0x0F => { s with CNT := x.setWidth 9 }
  | 0x10 => { s with BLEN := x.setWidth 8 }
  | 0x11 => { s with WEN := x.setWidth 1 }
  | 0x12 => { s with VCNT := x.setWidth 8 }
  | _ => s

/-- `HostRead(space, k)` (R253, R255): the unit zero extended; outside the space 0 (R257). -/
def hostRead (s : State) (sp : Space) (k : Nat) : Word :=
  match sp with
  | .reg => State.readReg s k
  | .v => if k < Config.V_COUNT then Cells.read s.V k else 0#64
  | .fb => if k < Config.FB_SIZE then (Memory.read s.FB k).setWidth 64 else 0#64
  | .pb => if k < Config.PB_SIZE then (Memory.read s.PB k).setWidth 64 else 0#64
  | .tbl => if k < 256 then (tbl (BitVec.ofNat 8 k)).setWidth 64 else 0#64

/-- `HostWrite(space, k, x)` but for a command issue (R254 to R257): the unit's low bits are stored; a write to
`TBL` or outside the space is ignored. -/
def hostWrite (s : State) (sp : Space) (k : Nat) (x : Word) : State :=
  match sp with
  | .reg => State.writeReg s k x
  | .v => if k < Config.V_COUNT then { s with V := Cells.write s.V k x } else s
  | .fb => if k < Config.FB_SIZE then { s with FB := Memory.write s.FB k (x.setWidth 8) } else s
  | .pb => if k < Config.PB_SIZE then { s with PB := Memory.write s.PB k (x.setWidth 8) } else s
  | .tbl => s

/-- The command word an access issues: a write of `REG` number 0x00 executes the low 16 bits (R254). -/
def commandOf : Access → Option CmdWord
  | .write .reg 0 x => some (x.setWidth 16)
  | _ => none

/-- Serves an access that issues no command. A read changes nothing of the block (R67): its value joins what the
host has read (log 2). The hardware reset is R310. -/
def serveAccess (a : Access) (s : State) : State :=
  match a with
  | .read sp k => { s with returned := hostRead s sp k :: s.returned }
  | .write sp k x => hostWrite s sp k x
  | .hwReset => State.clear s

/-- A word of no row: `raise IllegalOp(w[15:8])` (R91, R107, R282), whichever way it is illegal. -/
def illegalWord (w : CmdWord) (_why : Illegal) (s : State) : Host.Outcome State Fault Refusal :=
  fail .illegalOp (CmdWord.op w) s

/-- The access that issues the command word `w` (R28). -/
def issue (w : CmdWord) : Access := .write .reg 0x00 (w.setWidth 64)

/-- The block with nothing to serve is idle and keeps all its state (R287, R295; log 3). -/
def idle (s : State) : State := s

end Sys2Proof.Machine
end

