-- ==== Sys2Proof/Machine/Step.lean ====
section
/-! DEFINITION. One step: the next access of the host is served (20_memory.md R66, R70). -/

namespace Sys2Proof.Machine

/-- Executes the command word `w` (R91). -/
def runWord (w : CmdWord) (s : State) : Host.Outcome State Fault Refusal :=
  match decode w with
  | .ok i => exec i s
  | .error why => illegalWord w why s

/-- Serves one access (R61): a command issue runs to completion within the step (R66). -/
def serve (a : Access) (s : State) : Host.Outcome State Fault Refusal :=
  match commandOf a with
  | some w => runWord w s
  | none => .next (serveAccess a s)

/-- One step: the oldest pending access is taken and served; with none the block is idle (log 1, log 3). -/
def step (s : State) : Host.Outcome State Fault Refusal :=
  match s.pending with
  | [] => .next (idle s)
  | a :: rest => serve a { s with pending := rest }

/-- The state in which the next access is the issue of the table word `w` (log 1): where the block takes its next
command from is the host's next access. -/
def State.withFetchWord (s : State) (_nbits w : Nat) : State :=
  { s with pending := issue (BitVec.ofNat 16 w) :: s.pending }

end Sys2Proof.Machine
end

