-- ==== Sys2Proof/Safety.lean ====
section
/-! DEFINITION. What a legal state of the block is, and what a safe run is, in the terms the statements use. -/

namespace Sys2Proof.Machine

/-- Every space is in canonical form inside its index range: no cell of `V`, `FB` or `PB` lies where R60 gives the
space no index. -/
def State.spacesWf (s : State) : Bool :=
  Cells.wf Config.V_COUNT s.V && Memory.wf Config.FB_SIZE s.FB && Memory.wf Config.PB_SIZE s.PB

/-- `ERR` and `EINFO` hold a report that the table of R271 allows: a legal code (R29), detail only with
`DeviceStatus` and `IllegalOp`, a `state` byte outside `OK_STATES` with the first (R276), and with the second an
operation code that has an illegal word (R107). -/
def State.reportLegal (s : State) : Bool :=
  decide (s.ERR.toNat ≤ 0x0B)
    && (s.ERR == 0x05#8 || s.ERR == 0x0B#8 || s.EINFO == 0x00#8)
    && (!(s.ERR == 0x05#8) || !okState s.okStates s.EINFO)
    && (!(s.ERR == 0x0B#8) || !([0x11#8, 0x12#8, 0x30#8, 0x31#8].contains s.EINFO))

/-- The invariant of the block. -/
def State.Inv (s : State) : Prop := State.spacesWf s = true ∧ State.reportLegal s = true

/-- A safe run: no number of steps from `s` ends in a fault or a refusal. -/
def State.neverStops (s : State) : Prop := ∀ k, ∃ t : State, Host.Core.run Sys2Proof.core k s = .next t

end Sys2Proof.Machine
end

