-- ==== Sys2Proof/Certificates/Slice0/Obligations.lean ====
section
/-! DEFINITION. The statements for the provers, one `def Obligations.<Name> : Prop` each. Where a statement needs a
function of the spec it is written again here from the rule (`Sys2Proof.Statement`), bit by bit or byte by byte,
so that the model's own functions are what is being held to it. -/

namespace Sys2Proof.Statement

open Sys2Proof.Machine

/-! ### The checksum, from R132 and R133, one bit at a time -/

/-- One step of the register of R132: shift right, XOR 0x8C when the bit shifted out was 1. -/
def shiftStep (r : Byte) : Byte := if r.getLsbD 0 = true then (r >>> 1) ^^^ 0x8C#8 else r >>> 1

/-- The eight steps of R132. -/
def eightSteps (r : Byte) : Byte :=
  shiftStep (shiftStep (shiftStep (shiftStep (shiftStep (shiftStep (shiftStep (shiftStep r)))))))

/-- `crc8(s)` of R133 with the eight register steps in place of the table. -/
def bitCrc (s : List Byte) : Byte := s.foldl (fun acc b => eightSteps (acc ^^^ b)) 0x00#8

/-- The bytes of `m` at `a .. a+n-1`. -/
def bytesAt (m : Memory) (a n : Nat) : List Byte := (List.range n).map fun j => Memory.read m (a + j)

/-- The byte at `a + n` is the CRC of the `n` bytes at `a` (R134 of `n + 1` bytes). -/
abbrev crcFollows (m : Memory) (a n : Nat) : Prop := bitCrc (bytesAt m a n) = Memory.read m (a + n)

/-- The parameter `OK_STATES` accepts the byte (R8, R98). -/
abbrev accepted (s : State) (b : Byte) : Prop := b = 0x00#8 ∨ b ∈ s.okStates.extra

/-- The outcome of a command that raised the error of code `code` (R271, R272). -/
def raised (s : State) (code info : Byte) : Host.Outcome State Fault Refusal :=
  .next { s with ERR := code, EINFO := info }

/-- The commands of a list, one after the other. -/
def execAll : List Instr → State → Host.Outcome State Fault Refusal
  | [], s => .next s
  | i :: is, s =>
    match exec i s with
    | .next t => execAll is t
    | .fault r => .fault r
    | .refused r => .refused r

/-! ### The opcode map, row by row as R92 prints it -/

/-- The `match` and `mask` columns of R92, in the order of its 37 rows. -/
def rowTable : List (CmdWord × CmdWord) :=
  [(0x0000#16, 0xFFFF#16), (0x0100#16, 0xFFFF#16), (0x1000#16, 0xFFFF#16), (0x1100#16, 0xFF00#16),
   (0x1200#16, 0xFF00#16), (0x1300#16, 0xFFFE#16), (0x1400#16, 0xFFFE#16), (0x2000#16, 0xFFFF#16),
   (0x2100#16, 0xFFFF#16), (0x2200#16, 0xFFFF#16), (0x2300#16, 0xFFFF#16), (0x2400#16, 0xFFFF#16),
   (0x2500#16, 0xFFFF#16), (0x3000#16, 0xFF7F#16), (0x3001#16, 0xFF7F#16), (0x3002#16, 0xFF7F#16),
   (0x3003#16, 0xFF7F#16), (0x3004#16, 0xFF7F#16), (0x3005#16, 0xFF7F#16), (0x3006#16, 0xFF7F#16),
   (0x3007#16, 0xFF7F#16), (0x3100#16, 0xFF7F#16), (0x3101#16, 0xFF7F#16), (0x3102#16, 0xFF7F#16),
   (0x3103#16, 0xFF7F#16), (0x3104#16, 0xFF7F#16), (0x3105#16, 0xFF7F#16), (0x3106#16, 0xFF7F#16),
   (0x3107#16, 0xFF7F#16), (0x3008#16, 0xFF78#16), (0x3010#16, 0xFF70#16), (0x3020#16, 0xFF60#16),
   (0x3040#16, 0xFF40#16), (0x3108#16, 0xFF78#16), (0x3110#16, 0xFF70#16), (0x3120#16, 0xFF60#16),
   (0x3140#16, 0xFF40#16)]

/-- The place of the instruction's row in `rowTable`. -/
def rowIndex : Instr → Nat
  | .nop => 0
  | .rst => 1
  | .crcClr => 2
  | .crcUpd _ => 3
  | .crcCmp _ => 4
  | .crcCalc _ => 5
  | .crcCheck _ => 6
  | .hdrPack => 7
  | .hdrUnpack => 8
  | .datPack => 9
  | .datUnpack => 10
  | .frmEnc => 11
  | .frmDec => 12
  | .valEncU8 _ => 13
  | .valEncI8 _ => 14
  | .valEncU16 _ => 15
  | .valEncI16 _ => 16
  | .valEncU32 _ => 17
  | .valEncI32 _ => 18
  | .valEncF32 _ => 19
  | .valEncF64 _ => 20
  | .valDecU8 _ => 21
  | .valDecI8 _ => 22
  | .valDecU16 _ => 23
  | .valDecI16 _ => 24
  | .valDecU32 _ => 25
  | .valDecI32 _ => 26
  | .valDecF32 _ => 27
  | .valDecF64 _ => 28
  | .valEncRsvd08 _ _ => 29
  | .valEncRsvd10 _ _ => 30
  | .valEncRsvd20 _ _ => 31
  | .valEncRsvd40 _ _ => 32
  | .valDecRsvd08 _ _ => 33
  | .valDecRsvd10 _ _ => 34
  | .valDecRsvd20 _ _ => 35
  | .valDecRsvd40 _ _ => 36

/-- The legal words as R107 lists them, by operation code and argument. -/
def legalWord (w : CmdWord) : Prop :=
  let op := w.extractLsb' 8 8
  let arg := w.extractLsb' 0 8
  op ∈ [0x11#8, 0x12#8, 0x30#8, 0x31#8] ∨
    (op ∈ [0x00#8, 0x01#8, 0x10#8, 0x20#8, 0x21#8, 0x22#8, 0x23#8, 0x24#8, 0x25#8] ∧ arg = 0x00#8) ∨
    (op ∈ [0x13#8, 0x14#8] ∧ arg.toNat / 2 = 0)

/-! ### The registers, from the map of R35 -/

/-- The registers by number, 0x00 to 0x12, each zero extended; `OPC` reads 0 (R28, R35, R253). -/
def regValues (s : State) : List Word :=
  [0#64, s.ERR.setWidth 64, s.EINFO.setWidth 64, s.EQ.setWidth 64, s.ACC.setWidth 64, s.STATE.setWidth 64,
   s.CMD.setWidth 64, s.LEN.setWidth 64, s.SERIAL.setWidth 64, s.HCRC.setWidth 64, s.DCRC.setWidth 64,
   s.DPRES.setWidth 64, s.PLEN.setWidth 64, s.FLEN.setWidth 64, s.OFF.setWidth 64, s.CNT.setWidth 64,
   s.BLEN.setWidth 64, s.WEN.setWidth 64, s.VCNT.setWidth 64]

/-- The writable registers and their widths (R35, host column RW). -/
def writable : List (Nat × Nat) :=
  [(0x05, 8), (0x06, 8), (0x07, 8), (0x08, 24), (0x0B, 1), (0x0C, 8), (0x0D, 9), (0x0E, 9), (0x0F, 9),
   (0x10, 8), (0x11, 1), (0x12, 8)]

/-- The registers a command may write, `ERR` and `EINFO` left out (R35, last column; R40). -/
def mayWrite : Instr → List Nat
  | .rst => [0x03, 0x04, 0x05, 0x06, 0x07, 0x08, 0x09, 0x0A, 0x0B, 0x0C, 0x0D, 0x0E, 0x0F, 0x10, 0x11, 0x12]
  | .crcClr | .crcUpd _ | .crcCalc _ => [0x04]
  | .crcCmp _ => [0x03]
  | .crcCheck _ => [0x03, 0x04]
  | .hdrPack => [0x09, 0x0D]
  | .hdrUnpack => [0x05, 0x06, 0x07, 0x08, 0x09]
  | .datPack => [0x0A, 0x0D]
  | .datUnpack => [0x0A, 0x0B, 0x0C]
  | .frmEnc => [0x05, 0x07, 0x09, 0x0A, 0x0D]
  | .frmDec => [0x05, 0x06, 0x07, 0x08, 0x09, 0x0A, 0x0B, 0x0C]
  | .valDecU8 _ | .valDecI8 _ | .valDecU16 _ | .valDecI16 _ | .valDecU32 _ | .valDecI32 _ | .valDecF32 _
  | .valDecF64 _ => [0x12]
  | _ => []

/-- The commands that may write `V` (R40). -/
def mayWriteV : Instr → Bool
  | .rst | .valDecU8 _ | .valDecI8 _ | .valDecU16 _ | .valDecI16 _ | .valDecU32 _ | .valDecI32 _ | .valDecF32 _
  | .valDecF64 _ => true
  | _ => false

/-- The commands that may write `FB` (R32, R40). -/
def mayWriteFB : Instr → Bool
  | .rst | .hdrPack | .datPack | .frmEnc => true
  | _ => false

/-- The commands that may write `PB` (R33, R40). -/
def mayWritePB : Instr → Bool
  | .rst | .datUnpack | .frmDec | .valEncU8 _ | .valEncI8 _ | .valEncU16 _ | .valEncI16 _ | .valEncU32 _
  | .valEncI32 _ | .valEncF32 _ | .valEncF64 _ => true
  | _ => false

/-- The error codes a command may report, from the column "raised by" of R271. -/
def mayRaise : Instr → List Byte
  | .crcCalc _ | .crcCheck _ => [0x0A#8]
  | .hdrUnpack => [0x01#8, 0x04#8, 0x0A#8]
  | .datPack | .frmEnc => [0x03#8]
  | .datUnpack => [0x02#8, 0x03#8, 0x04#8, 0x0A#8]
  | .frmDec => [0x01#8, 0x02#8, 0x03#8, 0x04#8, 0x05#8, 0x0A#8]
  | .valEncU8 _ | .valEncI8 _ | .valEncU16 _ | .valEncI16 _ | .valEncU32 _ | .valEncI32 _ | .valEncF32 _ =>
    [0x06#8, 0x07#8, 0x09#8, 0x0A#8]
  | .valEncF64 _ => [0x06#8, 0x07#8, 0x0A#8]
  | .valDecU8 _ | .valDecI8 _ | .valDecU16 _ | .valDecI16 _ | .valDecU32 _ | .valDecI32 _ | .valDecF32 _
  | .valDecF64 _ => [0x06#8, 0x0A#8]
  | .valEncRsvd08 _ _ | .valEncRsvd10 _ _ | .valEncRsvd20 _ _ | .valEncRsvd40 _ _
  | .valDecRsvd08 _ _ | .valDecRsvd10 _ _ | .valDecRsvd20 _ _ | .valDecRsvd40 _ _ => [0x08#8]
  | .nop | .rst | .crcClr | .crcUpd _ | .crcCmp _ | .hdrPack => []

/-! ### The value unit -/

/-- The encode command of a type. -/
def encOf (arr : Bool) : ScalarType → Instr
  | .u8 => .valEncU8 arr
  | .i8 => .valEncI8 arr
  | .u16 => .valEncU16 arr
  | .i16 => .valEncI16 arr
  | .u32 => .valEncU32 arr
  | .i32 => .valEncI32 arr
  | .f32 => .valEncF32 arr
  | .f64 => .valEncF64 arr

/-- The decode command of a type. -/
def decOf (arr : Bool) : ScalarType → Instr
  | .u8 => .valDecU8 arr
  | .i8 => .valDecI8 arr
  | .u16 => .valDecU16 arr
  | .i16 => .valDecI16 arr
  | .u32 => .valDecU32 arr
  | .i32 => .valDecI32 arr
  | .f32 => .valDecF32 arr
  | .f64 => .valDecF64 arr

/-- The value of `T` of a type (R104). -/
def typeCode : ScalarType → Nat
  | .u8 => 0x00
  | .i8 => 0x01
  | .u16 => 0x02
  | .i16 => 0x03
  | .u32 => 0x04
  | .i32 => 0x05
  | .f32 => 0x06
  | .f64 => 0x07

/-- The size column of R104. -/
def wireSize : ScalarType → Nat
  | .u8 => 1
  | .i8 => 1
  | .u16 => 2
  | .i16 => 2
  | .u32 => 4
  | .i32 => 4
  | .f32 => 4
  | .f64 => 8

/-- The column "canonical when" of R201, as the range of numbers the container may stand for. -/
def fits (v : Word) : ScalarType → Prop
  | .u8 => v.toNat ≤ 255
  | .i8 => -128 ≤ v.toInt ∧ v.toInt ≤ 127
  | .u16 => v.toNat ≤ 65535
  | .i16 => -32768 ≤ v.toInt ∧ v.toInt ≤ 32767
  | .u32 => v.toNat ≤ 4294967295
  | .i32 => -2147483648 ≤ v.toInt ∧ v.toInt ≤ 2147483647
  | .f32 => v.toNat ≤ 4294967295
  | .f64 => True

/-- Byte `k` of the element, `v[8k+7 : 8k]` (R204). -/
def wireByte (v : Word) (k : Nat) : Byte := v.extractLsb' (8 * k) 8

/-- `R203`: the byte length holds a whole number `n` of elements, one of them when the tag is no array's. -/
def counts (t : ScalarType) (arr : Bool) (blen n : Nat) : Prop :=
  blen = n * wireSize t ∧ (arr = false → n = 1)

end Sys2Proof.Statement

open Sys2Proof Sys2Proof.Machine Sys2Proof.Statement

/-! ## Encoding -/

/-- Decode and encode agree: every well-formed instruction is read back from its word, every operand at every
value (30_encoding.md R91 to R93). -/
def Obligations.DecodeReadsBackEveryEncodedInstr : Prop :=
  ∀ i : Instr, i.wellFormed = true → decode (encode i) = .ok i

/-- Every legal word is the encoding of the instruction it decodes to: decoding drops no bit. -/
def Obligations.EncodeGivesBackEveryDecodedWord : Prop :=
  ∀ (w : CmdWord) (i : Instr), decode w = .ok i → i.wellFormed = true ∧ encode i = w

/-- R91 over the 37 rows of R92: at most one row matches a word; a word of a row decodes to that row's
instruction, a word of none to no instruction. -/
def Obligations.DecodingFollowsTheOneMatchingRow : Prop :=
  ∀ w : CmdWord,
    (rowTable.filter fun r => w &&& r.2 == r.1).length ≤ 1 ∧
    (∀ k r, rowTable[k]? = some r → w &&& r.2 = r.1 → ∃ i, decode w = .ok i ∧ rowIndex i = k) ∧
    ((∀ r ∈ rowTable, w &&& r.2 ≠ r.1) → ∃ why, decode w = .error why)

/-- R107: the words that decode to a command are exactly those its list leaves legal. -/
def Obligations.LegalWordsAreExactlyTheListed : Prop :=
  ∀ w : CmdWord, (∃ i, decode w = .ok i) ↔ legalWord w

/-- Words written out from R92 decode to the commands they stand for, and three illegal words of R107, one of each
kind it lists, are rejected. R107 gives the kinds no names: those in the last three clauses are the model's (log 12).
(Tier 1.) -/
def Obligations.WrittenOutWordsDecode : Prop :=
  decode 0x0000#16 = .ok .nop ∧ decode 0x11FD#16 = .ok (.crcUpd 0xFD#8) ∧ decode 0x1401#16 = .ok (.crcCheck .pb) ∧
    decode 0x2500#16 = .ok .frmDec ∧ decode 0x3183#16 = .ok (.valDecI16 true) ∧
    decode 0x3002#16 = .ok (.valEncU16 false) ∧ decode 0x30FF#16 = .ok (.valEncRsvd40 true 0x7F#7) ∧
    decode 0x1302#16 = .error .selectNotZero ∧ decode 0x2401#16 = .error .argNotZero ∧
    decode 0x2600#16 = .error .undefinedOp

/-! ## A step, and the host's accesses -/

/-- A step runs the decoded command (R28, R91, R254): when the next access writes `OPC` and the low 16 bits of the
value decode to `i`, the step is `exec i` in the state with that access taken from the list. -/
def Obligations.StepRunsTheDecodedCommand : Prop :=
  ∀ (s : State) (x : Word) (rest : List Access) (i : Instr),
    s.pending = .write .reg 0x00 x :: rest → decode (x.setWidth 16) = .ok i →
      step s = exec i { s with pending := rest }

/-- R282: a word of no row raises `IllegalOp`, with its operation code in `EINFO` and no other effect. -/
def Obligations.WordOfNoRowRaisesIllegalOp : Prop :=
  ∀ (s : State) (x : Word) (rest : List Access),
    s.pending = .write .reg 0x00 x :: rest → (∀ r ∈ rowTable, x.setWidth 16 &&& r.2 ≠ r.1) →
      step s = .next { s with pending := rest, ERR := 0x0B#8, EINFO := (x.setWidth 16).extractLsb' 8 8 }

/-- R253: a host read of a register number returns the register zero extended (`OPC` 0x0000) and changes nothing
of the block. A number above 0x12 reads 0, the first of the two behaviours R257 allows, which is the model's choice
(log 7); that the host's data path is 64 bits wide, and that what a read returned is kept in a list, are its choices
too (log 6, log 2). -/
def Obligations.HostReadOfARegisterReturnsItsValue : Prop :=
  ∀ (s : State) (k : Nat) (rest : List Access), s.pending = .read .reg k :: rest →
    step s = .next { s with pending := rest, returned := (regValues s).getD k 0#64 :: s.returned }

/-- R254: a host write to a writable register stores the low bits of its width in it and changes nothing else; a
write to `OPC` executes the command of its low 16 bits. -/
def Obligations.HostWriteOfARegisterChangesItAlone : Prop :=
  (∀ (s : State) (k b : Nat) (x : Word) (rest : List Access), (k, b) ∈ writable →
    s.pending = .write .reg k x :: rest →
      ∃ t, step s = .next t ∧ (regValues t)[k]? = some (BitVec.ofNat 64 (x.toNat % 2 ^ b)) ∧
        (∀ j, j ≠ k → (regValues t)[j]? = (regValues s)[j]?) ∧ t.V = s.V ∧ t.FB = s.FB ∧ t.PB = s.PB ∧
        t.okStates = s.okStates ∧ t.pending = rest ∧ t.returned = s.returned) ∧
  (∀ (s : State) (x : Word) (rest : List Access) (i : Instr), s.pending = .write .reg 0x00 x :: rest →
    decode (x.setWidth 16) = .ok i → step s = exec i { s with pending := rest })

/-- R255: inside its index range a host access of `FB`, `PB`, `V` or `TBL` reaches the one unit, whatever `FLEN`
and `PLEN` are, and changes no other state. The 64-bit data path and the list of what reads returned are the model's
choices (log 6, log 2). -/
def Obligations.HostAccessOfASpaceReachesOneUnit : Prop :=
  ∀ (s : State) (k : Nat) (x : Word) (rest : List Access),
    (k < 262 → s.pending = .read .fb k :: rest →
      step s = .next { s with pending := rest, returned := (Memory.read s.FB k).setWidth 64 :: s.returned }) ∧
    (k < 252 → s.pending = .read .pb k :: rest →
      step s = .next { s with pending := rest, returned := (Memory.read s.PB k).setWidth 64 :: s.returned }) ∧
    (k < 252 → s.pending = .read .v k :: rest →
      step s = .next { s with pending := rest, returned := Cells.read s.V k :: s.returned }) ∧
    (k < 256 → s.pending = .read .tbl k :: rest →
      step s = .next { s with
        pending := rest, returned := (eightSteps (BitVec.ofNat 8 k)).setWidth 64 :: s.returned }) ∧
    (k < 262 → s.pending = .write .fb k x :: rest →
      ∃ t, step s = .next t ∧ t = { s with pending := rest, FB := t.FB } ∧
        ∀ j, Memory.read t.FB j = if j = k then x.extractLsb' 0 8 else Memory.read s.FB j) ∧
    (k < 252 → s.pending = .write .pb k x :: rest →
      ∃ t, step s = .next t ∧ t = { s with pending := rest, PB := t.PB } ∧
        ∀ j, Memory.read t.PB j = if j = k then x.extractLsb' 0 8 else Memory.read s.PB j) ∧
    (k < 252 → s.pending = .write .v k x :: rest →
      ∃ t, step s = .next t ∧ t = { s with pending := rest, V := t.V } ∧
        ∀ j, Cells.read t.V j = if j = k then x else Cells.read s.V j)

/-- R256: a write to a read-only place changes nothing. A write outside the spaces changes nothing and a read there
returns 0, the first of the two behaviours R257 allows, which is the model's choice (log 7); so are the 64-bit data
path and the list of what reads returned (log 6, log 2). -/
def Obligations.ReadOnlyAndOutsideAccessesChangeNothing : Prop :=
  ∀ (s : State) (sp : Space) (k : Nat) (x : Word) (rest : List Access),
    (s.pending = .write sp k x :: rest →
      ((sp = .reg ∧ (k ∈ [0x01, 0x02, 0x03, 0x04, 0x09, 0x0A] ∨ 0x12 < k)) ∨ (sp = .fb ∧ 261 < k) ∨
        (sp = .pb ∧ 251 < k) ∨ (sp = .v ∧ 251 < k) ∨ sp = .tbl) →
      step s = .next { s with pending := rest }) ∧
    (s.pending = .read sp k :: rest →
      ((sp = .reg ∧ 0x12 < k) ∨ (sp = .fb ∧ 261 < k) ∨ (sp = .pb ∧ 251 < k) ∨ (sp = .v ∧ 251 < k) ∨
        (sp = .tbl ∧ 255 < k)) →
      step s = .next { s with pending := rest, returned := 0#64 :: s.returned })

/-- R310: the hardware reset leaves the block as the command `RST` does, every register, `V`, `FB` and `PB` zero;
`TBL` still reads as R132 constructs it. That it acts between two accesses, and that it leaves the parameter and
the host's lists alone, is the model's choice (log 8). -/
def Obligations.HardwareResetZeroesTheBlock : Prop :=
  ∀ (s : State) (rest : List Access), s.pending = .hwReset :: rest →
    ∃ t, step s = .next t ∧ exec .rst { s with pending := rest } = .next t ∧
      (∀ k, (regValues t).getD k 0#64 = 0#64) ∧ (∀ k, Cells.read t.V k = 0#64) ∧
      (∀ k, Memory.read t.FB k = 0x00#8) ∧ (∀ k, Memory.read t.PB k = 0x00#8) ∧
      (∀ k, k < 256 → hostRead t .tbl k = (eightSteps (BitVec.ofNat 8 k)).setWidth 64) ∧
      t.okStates = s.okStates ∧ t.pending = rest ∧ t.returned = s.returned

/-! ## System commands -/

/-- R250: `NOP` writes `ERR` and `EINFO` only, and no other word executes as a no-op. -/
def Obligations.NopOnlyClearsTheReport : Prop :=
  decode 0x0000#16 = .ok .nop ∧ (∀ s : State, exec .nop s = .next { s with ERR := 0x00#8, EINFO := 0x00#8 }) ∧
    (∀ (w : CmdWord) (i : Instr), decode w = .ok i → (∀ s : State, exec i s = exec .nop s) → w = 0x0000#16)

/-- R251: `RST` gives every register, `V`, `FB` and `PB` the reset value of R39, all zero, and `ERR` is 0. The
parameter `OK_STATES` and the host's lists are no state of the block (R20) and stay. -/
def Obligations.RstZeroesTheBlock : Prop :=
  decode 0x0100#16 = .ok .rst ∧
    ∀ s : State, ∃ t, exec .rst s = .next t ∧ (∀ k, (regValues t).getD k 0#64 = 0#64) ∧
      (∀ k, Cells.read t.V k = 0#64) ∧ (∀ k, Memory.read t.FB k = 0x00#8) ∧ (∀ k, Memory.read t.PB k = 0x00#8) ∧
      (∀ k, k < 256 → hostRead t .tbl k = (eightSteps (BitVec.ofNat 8 k)).setWidth 64) ∧
      t.okStates = s.okStates ∧ t.pending = s.pending ∧ t.returned = s.returned

/-! ## The CRC unit -/

/-- R132 of every entry of the table R34 prints. That the table is a permutation of the bytes (R135 (c)) and additive
over XOR (95_test_vectors.md section 2.1) are consequences the spec derives, no rules of its own. -/
def Obligations.TableIsTheEightStepConstruction : Prop :=
  (∀ i : Byte, tbl i = eightSteps i) ∧ (∀ y : Byte, ∃ i : Byte, tbl i = y) ∧
    (∀ a b : Byte, tbl (a ^^^ b) = tbl a ^^^ tbl b)

/-- R133 and R134: `crc8` is the checksum of R130 run one bit at a time, of no bytes 0x00; `check` compares the
trailing byte with it and is false of no bytes. -/
def Obligations.Crc8AndCheckAreTheBitSerialChecksum : Prop :=
  (∀ s : List Byte, crc8 s = bitCrc s) ∧ crc8 [] = 0x00#8 ∧ check [] = false ∧
    (∀ (s : List Byte) (c : Byte), check (s ++ [c]) = true ↔ bitCrc s = c)

/-- R135 (a) to (d): composition, residue, one trailing byte only, leading zeros. -/
def Obligations.ChecksumLaws : Prop :=
  (∀ a b : List Byte, crc8 (a ++ b) = b.foldl (fun acc x => tbl (acc ^^^ x)) (crc8 a)) ∧
    (∀ s : List Byte, crc8 (s ++ [crc8 s]) = 0x00#8) ∧
    (∀ (p : List Byte) (c : Byte), check (p ++ [c]) = true ↔ c = crc8 p) ∧
    (∀ (p : List Byte) (c d : Byte), c ≠ d → crc8 (p ++ [c]) ≠ crc8 (p ++ [d])) ∧
    (∀ s : List Byte, crc8 (0x00#8 :: s) = crc8 s)

/-- R136: `CRC.CLR` zeroes the accumulator; `EQ` and all else unchanged. -/
def Obligations.CrcClrZeroesTheAccumulator : Prop :=
  decode 0x1000#16 = .ok .crcClr ∧
    ∀ s : State, exec .crcClr s = .next { s with ACC := 0x00#8, ERR := 0x00#8, EINFO := 0x00#8 }

/-- R137: `CRC.UPD b` takes the accumulator through the eight register steps of `ACC xor b`; after `CRC.CLR` and
one `CRC.UPD` for each byte of a sequence the accumulator is its checksum. -/
def Obligations.CrcUpdFeedsOneByte : Prop :=
  (∀ b : Byte, decode (0x1100#16 + b.setWidth 16) = .ok (.crcUpd b)) ∧
    (∀ (s : State) (b : Byte), exec (.crcUpd b) s =
      .next { s with ACC := eightSteps (s.ACC ^^^ b), ERR := 0x00#8, EINFO := 0x00#8 }) ∧
    (∀ (s : State) (bs : List Byte), execAll (.crcClr :: bs.map .crcUpd) s =
      .next { s with ACC := bitCrc bs, ERR := 0x00#8, EINFO := 0x00#8 })

/-- R138: `CRC.CMP b` writes `EQ` and nothing else of the block; a mismatch is no error; after streaming the bytes
before a trailing byte `c`, `CRC.CMP c` leaves in `EQ` the value of `check` on the whole. -/
def Obligations.CrcCmpComparesTheAccumulator : Prop :=
  (∀ b : Byte, decode (0x1200#16 + b.setWidth 16) = .ok (.crcCmp b)) ∧
    (∀ (s : State) (b : Byte), exec (.crcCmp b) s =
      .next { s with EQ := if s.ACC = b then 1#1 else 0#1, ERR := 0x00#8, EINFO := 0x00#8 }) ∧
    (∀ (s : State) (p : List Byte) (c : Byte), ∃ t,
      execAll (.crcClr :: p.map .crcUpd ++ [.crcCmp c]) s = .next t ∧ t.ERR = 0x00#8 ∧
        (t.EQ = 1#1 ↔ check (p ++ [c]) = true))

/-- R139: `CRC.CALC s` faults with `BufRange` when the range is not inside the valid bytes of the buffer, and else
leaves the checksum of the range in `ACC`, whatever `ACC` was; `EQ` unchanged. -/
def Obligations.CrcCalcIsTheChecksumOfTheRange : Prop :=
  decode 0x1300#16 = .ok (.crcCalc .fb) ∧ decode 0x1301#16 = .ok (.crcCalc .pb) ∧
    ∀ s : State,
      (exec (.crcCalc .fb) s =
        if 262 < s.FLEN.toNat ∨ s.FLEN.toNat < s.OFF.toNat + s.CNT.toNat then raised s 0x0A#8 0x00#8
        else .next { s with
          ACC := bitCrc (bytesAt s.FB s.OFF.toNat s.CNT.toNat), ERR := 0x00#8, EINFO := 0x00#8 }) ∧
      (exec (.crcCalc .pb) s =
        if 252 < s.PLEN.toNat ∨ s.PLEN.toNat < s.OFF.toNat + s.CNT.toNat then raised s 0x0A#8 0x00#8
        else .next { s with
          ACC := bitCrc (bytesAt s.PB s.OFF.toNat s.CNT.toNat), ERR := 0x00#8, EINFO := 0x00#8 })

/-- R140: `CRC.CHECK s` faults as `CRC.CALC` does, and else leaves in `ACC` the checksum of the bytes before the
trailing one and in `EQ` whether the trailing byte is it; of no bytes 0x00 and 0. -/
def Obligations.CrcCheckComparesTheTrailingByte : Prop :=
  decode 0x1400#16 = .ok (.crcCheck .fb) ∧ decode 0x1401#16 = .ok (.crcCheck .pb) ∧
    ∀ (s : State) (b : Buf) (m : Memory) (len size : Nat),
      (b = .fb ∧ m = s.FB ∧ len = s.FLEN.toNat ∧ size = 262) ∨ (b = .pb ∧ m = s.PB ∧ len = s.PLEN.toNat ∧ size = 252) →
      exec (.crcCheck b) s =
        if size < len ∨ len < s.OFF.toNat + s.CNT.toNat then raised s 0x0A#8 0x00#8
        else if s.CNT.toNat = 0 then .next { s with ACC := 0x00#8, EQ := 0#1, ERR := 0x00#8, EINFO := 0x00#8 }
        else .next { s with
          ACC := bitCrc (bytesAt m s.OFF.toNat (s.CNT.toNat - 1))
          EQ := if crcFollows m s.OFF.toNat (s.CNT.toNat - 1) then 1#1 else 0#1
          ERR := 0x00#8
          EINFO := 0x00#8 }

/-- The streaming commands through the command port (R28, R70, R136 to R138): the host issues `CRC.CLR`, one
`CRC.UPD` a byte, and `CRC.CMP`; after as many steps the accumulator is the checksum of the bytes, `EQ` says
whether it is the byte compared, and nothing else of the block has changed. That the host's accesses are the list
`pending`, one served a step, is the model's form (log 1). -/
def Obligations.StreamedChecksumThroughTheCommandPort : Prop :=
  ∀ (s : State) (bs : List Byte) (c : Byte) (rest : List Access),
    s.pending = .write .reg 0x00 0x1000#64 :: bs.map (fun b => .write .reg 0x00 (0x1100#64 + b.setWidth 64)) ++
        .write .reg 0x00 (0x1200#64 + c.setWidth 64) :: rest →
      Host.Core.run Sys2Proof.core (bs.length + 2) s = .next { s with
        pending := rest
        ACC := bitCrc bs
        EQ := if bitCrc bs = c then 1#1 else 0#1
        ERR := 0x00#8
        EINFO := 0x00#8 }

/-! ## The frame unit -/

/-- R165: `HDR.PACK` writes the header registers in wire order with their CRC into `FB[0..6]`, the CRC into
`HCRC`, 7 into `FLEN`; every other byte and register is unchanged. -/
def Obligations.HdrPackWritesTheSevenHeaderBytes : Prop :=
  decode 0x2000#16 = .ok .hdrPack ∧
    ∀ s : State, ∃ t, exec .hdrPack s = .next t ∧
      t = { s with FB := t.FB, HCRC := t.HCRC, FLEN := 7#9, ERR := 0x00#8, EINFO := 0x00#8 } ∧
      t.HCRC = bitCrc [s.STATE, s.CMD, s.LEN, s.SERIAL.extractLsb' 0 8, s.SERIAL.extractLsb' 8 8,
        s.SERIAL.extractLsb' 16 8] ∧
      ∀ k, Memory.read t.FB k =
        if k = 0 then s.STATE else if k = 1 then s.CMD else if k = 2 then s.LEN
        else if k = 3 then s.SERIAL.extractLsb' 0 8 else if k = 4 then s.SERIAL.extractLsb' 8 8
        else if k = 5 then s.SERIAL.extractLsb' 16 8 else if k = 6 then t.HCRC else Memory.read s.FB k

/-- R166: `HDR.UNPACK` checks the length and the header CRC in that order, and splits the header bytes into the
registers; nothing else is written. -/
def Obligations.HdrUnpackSplitsACheckedHeader : Prop :=
  decode 0x2100#16 = .ok .hdrUnpack ∧
    ∀ s : State, exec .hdrUnpack s =
      if 262 < s.FLEN.toNat then raised s 0x0A#8 0x00#8
      else if s.FLEN.toNat < 7 then raised s 0x04#8 0x00#8
      else if ¬ crcFollows s.FB 0 6 then raised s 0x01#8 0x00#8
      else .next { s with
        STATE := Memory.read s.FB 0
        CMD := Memory.read s.FB 1
        LEN := Memory.read s.FB 2
        SERIAL := Memory.read s.FB 5 ++ Memory.read s.FB 4 ++ Memory.read s.FB 3
        HCRC := Memory.read s.FB 6
        ERR := 0x00#8
        EINFO := 0x00#8 }

/-- R167: `DAT.PACK` without a data block sets `DCRC` and `FLEN`; with one it writes the payload and its CRC from
`FB[7]` on; a payload above 252 bytes faults with `Oversize`. -/
def Obligations.DatPackAppendsTheDataBlock : Prop :=
  decode 0x2200#16 = .ok .datPack ∧
    ∀ s : State,
      if s.DPRES = 0#1 then
        exec .datPack s = .next { s with DCRC := 0x00#8, FLEN := 7#9, ERR := 0x00#8, EINFO := 0x00#8 }
      else if 252 < s.PLEN.toNat then exec .datPack s = raised s 0x03#8 0x00#8
      else ∃ t, exec .datPack s = .next t ∧
        t = { s with FB := t.FB, DCRC := t.DCRC, FLEN := t.FLEN, ERR := 0x00#8, EINFO := 0x00#8 } ∧
        t.DCRC = bitCrc (bytesAt s.PB 0 s.PLEN.toNat) ∧ t.FLEN.toNat = 8 + s.PLEN.toNat ∧
        ∀ k, Memory.read t.FB k =
          if 7 ≤ k ∧ k < 7 + s.PLEN.toNat then Memory.read s.PB (k - 7)
          else if k = 7 + s.PLEN.toNat then t.DCRC else Memory.read s.FB k

/-- R168: `DAT.UNPACK` checks length, data CRC and size in that order, and extracts the payload; `PB` above the new
`PLEN` and all else is unchanged. -/
def Obligations.DatUnpackExtractsACheckedBlock : Prop :=
  decode 0x2300#16 = .ok .datUnpack ∧
    ∀ s : State,
      if 262 < s.FLEN.toNat then exec .datUnpack s = raised s 0x0A#8 0x00#8
      else if s.FLEN.toNat ≠ 7 + s.LEN.toNat then exec .datUnpack s = raised s 0x04#8 0x00#8
      else if s.LEN.toNat = 0 then
        exec .datUnpack s =
          .next { s with DPRES := 0#1, PLEN := 0#8, DCRC := 0x00#8, ERR := 0x00#8, EINFO := 0x00#8 }
      else if ¬ crcFollows s.FB 7 (s.LEN.toNat - 1) then exec .datUnpack s = raised s 0x02#8 0x00#8
      else if 252 < s.LEN.toNat - 1 then exec .datUnpack s = raised s 0x03#8 0x00#8
      else ∃ t, exec .datUnpack s = .next t ∧
        t = { s with
          PB := t.PB, PLEN := t.PLEN, DPRES := 1#1, DCRC := Memory.read s.FB (6 + s.LEN.toNat), ERR := 0x00#8,
          EINFO := 0x00#8 } ∧
        t.PLEN.toNat = s.LEN.toNat - 1 ∧
        ∀ k, Memory.read t.PB k = if k < s.LEN.toNat - 1 then Memory.read s.FB (7 + k) else Memory.read s.PB k

/-- R170: `FRM.ENC` builds the complete request frame of R164: marker 0xFD, `cmd`, the length of R163, `serial`
and header CRC, then the data block when present; `Oversize` comes before any write. -/
def Obligations.FrmEncBuildsTheRequestFrame : Prop :=
  decode 0x2400#16 = .ok .frmEnc ∧
    ∀ s : State,
      if s.DPRES = 1#1 ∧ 252 < s.PLEN.toNat then exec .frmEnc s = raised s 0x03#8 0x00#8
      else ∃ t, exec .frmEnc s = .next t ∧
        t = { s with
          STATE := 0xFD#8, LEN := t.LEN, FB := t.FB, HCRC := t.HCRC, DCRC := t.DCRC, FLEN := t.FLEN,
          ERR := 0x00#8, EINFO := 0x00#8 } ∧
        t.LEN.toNat = (if s.DPRES = 1#1 then s.PLEN.toNat + 1 else 0) ∧
        t.FLEN.toNat = 7 + t.LEN.toNat ∧
        t.HCRC = bitCrc [0xFD#8, s.CMD, t.LEN, s.SERIAL.extractLsb' 0 8, s.SERIAL.extractLsb' 8 8,
          s.SERIAL.extractLsb' 16 8] ∧
        t.DCRC = (if s.DPRES = 1#1 then bitCrc (bytesAt s.PB 0 s.PLEN.toNat) else 0x00#8) ∧
        ∀ k, Memory.read t.FB k =
          if k = 0 then 0xFD#8 else if k = 1 then s.CMD else if k = 2 then t.LEN
          else if k = 3 then s.SERIAL.extractLsb' 0 8 else if k = 4 then s.SERIAL.extractLsb' 8 8
          else if k = 5 then s.SERIAL.extractLsb' 16 8 else if k = 6 then t.HCRC
          else if s.DPRES = 1#1 ∧ k < 7 + s.PLEN.toNat then Memory.read s.PB (k - 7)
          else if s.DPRES = 1#1 ∧ k = 7 + s.PLEN.toNat then t.DCRC
          else Memory.read s.FB k

/-- R173 with the steps of R169: `FRM.DEC` makes its seven checks in order, and on success splits header and data
block into the registers and `PB`; on a fault nothing but the report is written. -/
def Obligations.FrmDecValidatesThenSplitsTheFrame : Prop :=
  decode 0x2500#16 = .ok .frmDec ∧
    ∀ (s : State) (len : Nat), len = (Memory.read s.FB 2).toNat →
      if 262 < s.FLEN.toNat then exec .frmDec s = raised s 0x0A#8 0x00#8
      else if s.FLEN.toNat < 7 then exec .frmDec s = raised s 0x04#8 0x00#8
      else if ¬ crcFollows s.FB 0 6 then exec .frmDec s = raised s 0x01#8 0x00#8
      else if ¬ accepted s (Memory.read s.FB 0) then exec .frmDec s = raised s 0x05#8 (Memory.read s.FB 0)
      else if s.FLEN.toNat ≠ 7 + len then exec .frmDec s = raised s 0x04#8 0x00#8
      else if len ≠ 0 ∧ ¬ crcFollows s.FB 7 (len - 1) then exec .frmDec s = raised s 0x02#8 0x00#8
      else if len ≠ 0 ∧ 252 < len - 1 then exec .frmDec s = raised s 0x03#8 0x00#8
      else ∃ t, exec .frmDec s = .next t ∧
        t = { s with
          STATE := Memory.read s.FB 0
          CMD := Memory.read s.FB 1
          LEN := Memory.read s.FB 2
          SERIAL := Memory.read s.FB 5 ++ Memory.read s.FB 4 ++ Memory.read s.FB 3
          HCRC := Memory.read s.FB 6
          DPRES := if len = 0 then 0#1 else 1#1
          PLEN := t.PLEN
          DCRC := if len = 0 then 0x00#8 else Memory.read s.FB (6 + len)
          PB := t.PB
          ERR := 0x00#8
          EINFO := 0x00#8 } ∧
        t.PLEN.toNat = len - 1 ∧
        ∀ k, Memory.read t.PB k = if k < len - 1 then Memory.read s.FB (7 + k) else Memory.read s.PB k

/-- R276: `FRM.DEC` reports `DeviceStatus` exactly when the buffer holds a header whose CRC is good and whose
`state` byte is not in `OK_STATES`, with that byte in `EINFO`; `HDR.UNPACK` never reports it. -/
def Obligations.DeviceStatusReportsTheStateByte : Prop :=
  ∀ s : State,
    (∃ t, exec .frmDec s = .next t ∧
      (t.ERR = 0x05#8 ↔ 7 ≤ s.FLEN.toNat ∧ s.FLEN.toNat ≤ 262 ∧ crcFollows s.FB 0 6 ∧
        ¬ accepted s (Memory.read s.FB 0)) ∧
      (t.ERR = 0x05#8 → t.EINFO = Memory.read s.FB 0)) ∧
    (∃ t, exec .hdrUnpack s = .next t ∧ t.ERR ≠ 0x05#8)

/-- R172: what `FRM.ENC` builds, `FRM.DEC` reads back exactly when 0xFD is in `OK_STATES`: command, serial,
presence and payload are those encoded; when it is not, the decode fails at the state check. -/
def Obligations.EncodedFrameDecodesBack : Prop :=
  ∀ s : State, (s.DPRES = 1#1 → s.PLEN.toNat ≤ 252) →
    ∃ t u, exec .frmEnc s = .next t ∧ exec .frmDec t = .next u ∧
      (accepted s 0xFD#8 →
        u.ERR = 0x00#8 ∧ u.STATE = 0xFD#8 ∧ u.CMD = s.CMD ∧ u.SERIAL = s.SERIAL ∧ u.LEN = t.LEN ∧
          u.DPRES = s.DPRES ∧ (s.DPRES = 0#1 → u.PLEN = 0#8) ∧
          (s.DPRES = 1#1 → u.PLEN = s.PLEN ∧ ∀ k, k < s.PLEN.toNat → Memory.read u.PB k = Memory.read s.PB k)) ∧
      (¬ accepted s 0xFD#8 → u = { t with ERR := 0x05#8, EINFO := 0xFD#8 })

/-- R174: on a frame that `FRM.DEC` accepts, `HDR.UNPACK` then `DAT.UNPACK` leave the same state; and `FRM.ENC`
equals setting `STATE` and `LEN`, then `HDR.PACK`, then `DAT.PACK`, where it does not fault. -/
def Obligations.WholeFrameCommandsAreTheirHalves : Prop :=
  (∀ s t : State, exec .frmDec s = .next t → t.ERR = 0x00#8 → execAll [.hdrUnpack, .datUnpack] s = .next t) ∧
    (∀ s : State, (s.DPRES = 1#1 → s.PLEN.toNat ≤ 252) →
      exec .frmEnc s = execAll [.hdrPack, .datPack]
        { s with STATE := 0xFD#8, LEN := if s.DPRES = 1#1 then s.PLEN + 1#8 else 0x00#8 })

/-! ## The value unit -/

/-- R201: the canonical containers of the eight types are those of the numbers the table gives each type. -/
def Obligations.CanonicalContainersAreTheTabulatedRanges : Prop :=
  ∀ (t : ScalarType) (v : Word), ScalarType.canonical t v = true ↔ fits v t

/-- R206: encoding and decoding of one element are inverse, and decoding gives a canonical container. -/
def Obligations.ScalarCodecInverseLaws : Prop :=
  ∀ t : ScalarType,
    (∀ v : Word, fits v t → ScalarType.dec t (ScalarType.enc t v) = v) ∧
    (∀ b : List Byte, b.length = wireSize t →
      ScalarType.enc t (ScalarType.dec t b) = b ∧ fits (ScalarType.dec t b) t)

/-- R210 for the eight types, scalar and array: the checks in order, and on success the bytes of `V[0..n-1]` in
place in `PB`; `PB` outside them and all else is unchanged. That a value check with more than 252 elements looks
at the 252 registers that exist is the model's reading (log 9). -/
def Obligations.ValEncWritesTheElementBytes : Prop :=
  (∀ (t : ScalarType) (arr : Bool), decode (BitVec.ofNat 16 (0x3000 + (if arr then 0x80 else 0) + typeCode t)) =
    .ok (encOf arr t)) ∧
  ∀ (t : ScalarType) (arr : Bool) (s : State),
    ((¬ ∃ n, counts t arr s.BLEN.toNat n ∧ s.VCNT.toNat = n) → exec (encOf arr t) s = raised s 0x06#8 0x00#8) ∧
    (∀ n, counts t arr s.BLEN.toNat n → s.VCNT.toNat = n →
      (s.WEN = 0#1 → exec (encOf arr t) s = raised s 0x07#8 0x00#8) ∧
      (s.WEN = 1#1 → (¬ ∀ i, i < n → i < 252 → fits (Cells.read s.V i) t) →
        exec (encOf arr t) s = raised s 0x09#8 0x00#8) ∧
      (s.WEN = 1#1 → (∀ i, i < n → i < 252 → fits (Cells.read s.V i) t) → 252 < s.OFF.toNat + s.BLEN.toNat →
        exec (encOf arr t) s = raised s 0x0A#8 0x00#8) ∧
      (s.WEN = 1#1 → (∀ i, i < n → i < 252 → fits (Cells.read s.V i) t) → s.OFF.toNat + s.BLEN.toNat ≤ 252 →
        ∃ u, exec (encOf arr t) s = .next u ∧ u = { s with PB := u.PB, ERR := 0x00#8, EINFO := 0x00#8 } ∧
          (∀ i k, i < n → k < wireSize t →
            Memory.read u.PB (s.OFF.toNat + i * wireSize t + k) = wireByte (Cells.read s.V i) k) ∧
          (∀ a, (a < s.OFF.toNat ∨ s.OFF.toNat + s.BLEN.toNat ≤ a) → Memory.read u.PB a = Memory.read s.PB a)))

/-- R211 for the eight types, scalar and array: the checks in order, and on success the canonical container of
each element in `V[0..n-1]` and `n` in `VCNT`; the other containers and all else are unchanged, `WEN` is not
looked at. -/
def Obligations.ValDecReadsTheElementBytes : Prop :=
  (∀ (t : ScalarType) (arr : Bool), decode (BitVec.ofNat 16 (0x3100 + (if arr then 0x80 else 0) + typeCode t)) =
    .ok (decOf arr t)) ∧
  ∀ (t : ScalarType) (arr : Bool) (s : State),
    ((¬ ∃ n, counts t arr s.BLEN.toNat n) → exec (decOf arr t) s = raised s 0x06#8 0x00#8) ∧
    (∀ n, counts t arr s.BLEN.toNat n →
      (252 < s.PLEN.toNat ∨ s.PLEN.toNat < s.OFF.toNat + s.BLEN.toNat →
        exec (decOf arr t) s = raised s 0x0A#8 0x00#8) ∧
      (s.PLEN.toNat ≤ 252 → s.OFF.toNat + s.BLEN.toNat ≤ s.PLEN.toNat →
        ∃ u, exec (decOf arr t) s = .next u ∧
          u = { s with V := u.V, VCNT := u.VCNT, ERR := 0x00#8, EINFO := 0x00#8 } ∧ u.VCNT.toNat = n ∧
          (∀ i, i < n → fits (Cells.read u.V i) t ∧ ∀ k, k < wireSize t →
            wireByte (Cells.read u.V i) k = Memory.read s.PB (s.OFF.toNat + i * wireSize t + k)) ∧
          (∀ i, n ≤ i → Cells.read u.V i = Cells.read s.V i)))

/-- Values written to the payload by `VAL.ENC.<T>` are read back by `VAL.DEC.<T>` with the same operands once
`PLEN` covers them: every container of `V` is as before (R206, R209, R210, R211). -/
def Obligations.EncodedValuesDecodeBack : Prop :=
  ∀ (t : ScalarType) (arr : Bool) (s u : State), exec (encOf arr t) s = .next u → u.ERR = 0x00#8 →
    ∀ p : BitVec 8, s.OFF.toNat + s.BLEN.toNat ≤ p.toNat → p.toNat ≤ 252 →
      ∃ x, exec (decOf arr t) { u with PLEN := p } = .next x ∧ x.ERR = 0x00#8 ∧ x.VCNT = s.VCNT ∧
        ∀ i, Cells.read x.V i = Cells.read s.V i

/-- R228: a value command whose tag has `T` in 0x08..0x7F, with either array bit, raises `BadTypeTag` before any
other check and moves nothing; so does each of the eight constructors for its rows. -/
def Obligations.ReservedTagsRaiseBadTypeTag : Prop :=
  (∀ w : CmdWord, (w.extractLsb' 8 8 = 0x30#8 ∨ w.extractLsb' 8 8 = 0x31#8) → 8 ≤ (w.extractLsb' 0 7).toNat →
    ∃ i, decode w = .ok i ∧ ∀ s : State, exec i s = raised s 0x08#8 0x00#8) ∧
  ∀ (arr : Bool) (t : BitVec 7) (s : State) (i : Instr),
    i ∈ [.valEncRsvd08 arr t, .valEncRsvd10 arr t, .valEncRsvd20 arr t, .valEncRsvd40 arr t,
      .valDecRsvd08 arr t, .valDecRsvd10 arr t, .valDecRsvd20 arr t, .valDecRsvd40 arr t] →
    exec i s = raised s 0x08#8 0x00#8

/-! ## The whole machine -/

/-- R272: a command that ends with an error, an illegal word included, writes `ERR` and `EINFO` and nothing else; a
success writes 0 to both. -/
def Obligations.AFaultingCommandWritesOnlyTheReport : Prop :=
  ∀ s t : State, ((∃ i : Instr, exec i s = .next t) ∨ (∃ w : CmdWord, runWord w s = .next t)) →
    (t.ERR ≠ 0x00#8 → t = { s with ERR := t.ERR, EINFO := t.EINFO }) ∧ (t.ERR = 0x00#8 → t.EINFO = 0x00#8)

/-- R271: a command reports only the codes the table lists it under, with detail 0x00 but for `DeviceStatus`. -/
def Obligations.CommandsReportOnlyTheirListedErrors : Prop :=
  ∀ (i : Instr) (s t : State), exec i s = .next t →
    (t.ERR = 0x00#8 ∨ t.ERR ∈ mayRaise i) ∧ (t.ERR ≠ 0x05#8 → t.EINFO = 0x00#8)

/-- The columns of R35 and R40 for all commands, by register and by whole space: a command changes no register that
they do not list for it, and none of `V`, `FB` and `PB` unless they list the space for it; in particular only CRC
commands and `RST` write `ACC` and `EQ` (R26, R27), and no command but `RST` writes `OFF`, `CNT`, `BLEN` or `WEN` (R25,
R259). Which bytes of a listed space change stands in the statement of each command. No command touches the parameter
`OK_STATES` or the host's lists. -/
def Obligations.CommandsWriteOnlyListedRegistersAndSpaces : Prop :=
  ∀ (i : Instr) (s t : State), exec i s = .next t →
    (∀ k, k ≠ 0x01 → k ≠ 0x02 → k ∉ mayWrite i → (regValues t)[k]? = (regValues s)[k]?) ∧
    (mayWriteV i = false → t.V = s.V) ∧ (mayWriteFB i = false → t.FB = s.FB) ∧
    (mayWritePB i = false → t.PB = s.PB) ∧
    t.okStates = s.okStates ∧ t.pending = s.pending ∧ t.returned = s.returned

/-- Bytes of `FB` at or above `FLEN` and of `PB` at or above `PLEN` are no part of frame and payload (R32, R33, R321):
two states that differ only there give every command the same report, the same registers and the same `V`; and each
byte of `FB` and `PB` is the same in both results, or in both the one that stood there before. -/
def Obligations.BytesBeyondTheLengthsAreNeverRead : Prop :=
  ∀ (i : Instr) (s t : State) (fb pb : Memory),
    (∀ k, k < s.FLEN.toNat → Memory.read fb k = Memory.read s.FB k) →
    (∀ k, k < s.PLEN.toNat → Memory.read pb k = Memory.read s.PB k) →
    exec i s = .next t →
      ∃ u, exec i { s with FB := fb, PB := pb } = .next u ∧ u = { t with FB := u.FB, PB := u.PB } ∧
        (∀ k, Memory.read u.FB k = Memory.read t.FB k ∨
          (Memory.read t.FB k = Memory.read s.FB k ∧ Memory.read u.FB k = Memory.read fb k)) ∧
        (∀ k, Memory.read u.PB k = Memory.read t.PB k ∨
          (Memory.read t.PB k = Memory.read s.PB k ∧ Memory.read u.PB k = Memory.read pb k))

/-- Every step keeps the invariant of `Safety.lean`: the canonical form of the three spaces inside their index
ranges (R60, R259), and a report that R29 and R271 allow. -/
def Obligations.EveryStepKeepsTheInvariant : Prop :=
  ∀ s t : State, State.Inv s → step s = .next t → State.Inv t

/-- The state after reset is that of R39: every register, `V`, `FB` and `PB` reads 0, `OPC` reads 0x0000, `TBL` holds
its constants; and it meets the invariant. -/
def Obligations.ResetMeetsTheInvariant : Prop :=
  State.Inv State.reset ∧ (∀ k, (regValues State.reset).getD k 0#64 = 0#64) ∧
    hostRead State.reset .reg 0x00 = 0#64 ∧
    (∀ k, Cells.read State.reset.V k = 0#64) ∧ (∀ k, Memory.read State.reset.FB k = 0x00#8) ∧
    (∀ k, Memory.read State.reset.PB k = 0x00#8) ∧
    (∀ k, k < 256 → hostRead State.reset .tbl k = (eightSteps (BitVec.ofNat 8 k)).setWidth 64)

/-- No run stops: an error of a command is reported and the block is ready for the next access (R270, R287). That an
access outside the spaces completes, where R257 also allows a refusal, is the model's choice (log 7), and that with
no access pending the block idles is its reading (log 3). -/
def Obligations.NoRunEverStops : Prop := ∀ s : State, State.neverStops s
end

