-- ==== Sys2Proof/Laws/Cells.lean ====
section
/-! SUPPORT. The laws of a space: read after write, block access, and that every operation keeps the canonical
form. Read-after-write needs no canonical form; that equal contents are equal data does. -/

namespace Sys2Proof.Machine

section Cells

variable {w : Nat}

@[simp] theorem Cells.read_nil (k : Nat) : Cells.read ([] : Cells w) k = 0#w := rfl

theorem Cells.read_erase_self (m : Cells w) (k : Nat) : Cells.read (Cells.erase k m) k = 0#w := by
  induction m with
  | nil => rfl
  | cons c m ih =>
    simp only [Cells.erase]
    split
    · exact ih
    · simp only [Cells.read, if_neg ‹_›, ih]

theorem Cells.read_erase_ne (m : Cells w) {k j : Nat} (h : j ≠ k) :
    Cells.read (Cells.erase k m) j = Cells.read m j := by
  induction m with
  | nil => rfl
  | cons c m ih =>
    simp only [Cells.erase]
    split
    · rename_i hk; simp only [Cells.read, ih, if_neg (hk ▸ Ne.symm h)]
    · simp only [Cells.read, ih]

theorem Cells.not_mem_erase (m : Cells w) (k : Nat) (x : BitVec w) : (k, x) ∉ Cells.erase k m := by
  induction m with
  | nil => simp [Cells.erase]
  | cons c m ih =>
    simp only [Cells.erase]
    split
    · exact ih
    · rename_i hk
      simp only [List.mem_cons, not_or]
      exact ⟨fun e => hk (congrArg Prod.fst e).symm, ih⟩

theorem Cells.read_insert_ne (m : Cells w) {k j : Nat} (x : BitVec w) (h : j ≠ k) :
    Cells.read (Cells.insert k x m) j = Cells.read m j := by
  induction m with
  | nil => simp [Cells.insert, Cells.read, Ne.symm h]
  | cons c m ih =>
    simp only [Cells.insert]
    split
    · simp only [Cells.read, if_neg (Ne.symm h)]
    · simp only [Cells.read, ih]

theorem Cells.read_insert_self (m : Cells w) {k : Nat} (x : BitVec w) (h : ∀ y, (k, y) ∉ m) :
    Cells.read (Cells.insert k x m) k = x := by
  induction m with
  | nil => simp [Cells.insert, Cells.read]
  | cons c m ih =>
    simp only [Cells.insert]
    split
    · simp [Cells.read]
    · have hc : c.1 ≠ k := fun e => h c.2 (by rw [← e]; exact List.mem_cons_self)
      simp only [Cells.read, if_neg hc]
      exact ih fun y hy => h y (List.mem_cons_of_mem _ hy)

@[simp] theorem Cells.read_write_self (m : Cells w) (k : Nat) (x : BitVec w) :
    Cells.read (Cells.write m k x) k = x := by
  unfold Cells.write
  split
  · rw [Cells.read_erase_self]; exact Eq.symm ‹_›
  · exact Cells.read_insert_self _ x (Cells.not_mem_erase m k)

theorem Cells.read_write_ne (m : Cells w) {k j : Nat} (x : BitVec w) (h : j ≠ k) :
    Cells.read (Cells.write m k x) j = Cells.read m j := by
  unfold Cells.write
  split
  · exact Cells.read_erase_ne m h
  · rw [Cells.read_insert_ne _ x h, Cells.read_erase_ne m h]

theorem Cells.read_write (m : Cells w) (k j : Nat) (x : BitVec w) :
    Cells.read (Cells.write m k x) j = if j = k then x else Cells.read m j := by
  split
  · rename_i h; rw [h]; exact Cells.read_write_self m k x
  · exact Cells.read_write_ne m x ‹_›

/-! ### The canonical form -/

theorem Cells.wfFrom_cons {lo size k : Nat} {x : BitVec w} {m : Cells w} :
    Cells.wfFrom lo size ((k, x) :: m) = true ↔
      lo ≤ k ∧ k < size ∧ x ≠ 0#w ∧ Cells.wfFrom (k + 1) size m = true := by
  simp [Cells.wfFrom, and_assoc]

theorem Cells.wfFrom_mono {lo lo' size : Nat} {m : Cells w} (h : lo' ≤ lo)
    (hm : Cells.wfFrom lo size m = true) : Cells.wfFrom lo' size m = true := by
  cases m with
  | nil => rfl
  | cons c m =>
    rw [Cells.wfFrom_cons] at hm ⊢
    exact ⟨by omega, hm.2⟩

theorem Cells.wfFrom_erase {lo size : Nat} {m : Cells w} (k : Nat)
    (hm : Cells.wfFrom lo size m = true) : Cells.wfFrom lo size (Cells.erase k m) = true := by
  induction m generalizing lo with
  | nil => rfl
  | cons c m ih =>
    rw [Cells.wfFrom_cons] at hm
    simp only [Cells.erase]
    split
    · exact Cells.wfFrom_mono (by omega) (ih hm.2.2.2)
    · rw [Cells.wfFrom_cons]
      exact ⟨hm.1, hm.2.1, hm.2.2.1, ih hm.2.2.2⟩

theorem Cells.wfFrom_insert {lo size k : Nat} {x : BitVec w} {m : Cells w} (hlo : lo ≤ k) (hk : k < size)
    (hx : x ≠ 0#w) (hm : Cells.wfFrom lo size m = true) (hn : ∀ y, (k, y) ∉ m) :
    Cells.wfFrom lo size (Cells.insert k x m) = true := by
  induction m generalizing lo with
  | nil => simp [Cells.insert, Cells.wfFrom, hlo, hk, hx]
  | cons c m ih =>
    have hc : c.1 ≠ k := fun e => hn c.2 (by rw [← e]; exact List.mem_cons_self)
    rw [Cells.wfFrom_cons] at hm
    simp only [Cells.insert]
    split
    · rw [Cells.wfFrom_cons, Cells.wfFrom_cons]
      exact ⟨hlo, hk, hx, by omega, hm.2.1, hm.2.2.1, hm.2.2.2⟩
    · rw [Cells.wfFrom_cons]
      exact ⟨hm.1, hm.2.1, hm.2.2.1,
        ih (by omega) hm.2.2.2 fun y hy => hn y (List.mem_cons_of_mem _ hy)⟩

/-- A write inside the space keeps the canonical form. -/
theorem Cells.wf_write {size k : Nat} {m : Cells w} (x : BitVec w) (hk : k < size)
    (hm : Cells.wf size m = true) : Cells.wf size (Cells.write m k x) = true := by
  unfold Cells.write
  split
  · exact Cells.wfFrom_erase k hm
  · exact Cells.wfFrom_insert (Nat.zero_le k) hk ‹_› (Cells.wfFrom_erase k hm) (Cells.not_mem_erase m k)

theorem Cells.read_eq_zero_of_wfFrom {lo size k : Nat} {m : Cells w} (hm : Cells.wfFrom lo size m = true)
    (hk : k < lo ∨ size ≤ k) : Cells.read m k = 0#w := by
  induction m generalizing lo with
  | nil => rfl
  | cons c m ih =>
    rw [Cells.wfFrom_cons] at hm
    have hc : c.1 ≠ k := by omega
    simp only [Cells.read, if_neg hc]
    exact ih hm.2.2.2 (by omega)

/-- A canonical space reads 0 outside its index range. -/
theorem Cells.read_outside {size k : Nat} {m : Cells w} (hm : Cells.wf size m = true) (hk : size ≤ k) :
    Cells.read m k = 0#w :=
  Cells.read_eq_zero_of_wfFrom hm (.inr hk)

theorem Cells.ext_of_wfFrom {lo size : Nat} {m n : Cells w} (hm : Cells.wfFrom lo size m = true)
    (hn : Cells.wfFrom lo size n = true) (h : ∀ k, Cells.read m k = Cells.read n k) : m = n := by
  induction m generalizing lo n with
  | nil =>
    cases n with
    | nil => rfl
    | cons d n =>
      rw [Cells.wfFrom_cons] at hn
      have := h d.1
      simp only [Cells.read, if_true] at this
      exact absurd this.symm hn.2.2.1
  | cons c m ih =>
    rw [Cells.wfFrom_cons] at hm
    cases n with
    | nil =>
      have := h c.1
      simp only [Cells.read, if_true] at this
      exact absurd this hm.2.2.1
    | cons d n =>
      rw [Cells.wfFrom_cons] at hn
      obtain ⟨i, x⟩ := c
      obtain ⟨j, y⟩ := d
      simp only at hm hn
      have hij : i = j := by
        rcases Nat.lt_trichotomy i j with hlt | heq | hgt
        · have := h i
          have hz := Cells.read_eq_zero_of_wfFrom (k := i) hn.2.2.2 (.inl (by omega))
          simp only [Cells.read, if_true, if_neg (show j ≠ i by omega), hz] at this
          exact absurd this hm.2.2.1
        · exact heq
        · have := h j
          have hz := Cells.read_eq_zero_of_wfFrom (k := j) hm.2.2.2 (.inl (by omega))
          simp only [Cells.read, if_true, if_neg (show i ≠ j by omega), hz] at this
          exact absurd this.symm hn.2.2.1
      subst hij
      have hxy : x = y := by simpa [Cells.read] using h i
      subst hxy
      congr 1
      refine ih hm.2.2.2 hn.2.2.2 fun k => ?_
      by_cases hk : i = k
      · subst hk
        rw [Cells.read_eq_zero_of_wfFrom hm.2.2.2 (.inl (by omega)),
          Cells.read_eq_zero_of_wfFrom hn.2.2.2 (.inl (by omega))]
      · simpa [Cells.read, hk] using h k

/-- Canonical spaces with equal contents are equal data. -/
theorem Cells.ext {size : Nat} {m n : Cells w} (hm : Cells.wf size m = true) (hn : Cells.wf size n = true)
    (h : ∀ k, Cells.read m k = Cells.read n k) : m = n :=
  Cells.ext_of_wfFrom hm hn h

end Cells

/-! ### Byte spaces -/

@[simp] theorem Memory.read_nil (k : Nat) : Memory.read [] k = 0#8 := rfl

theorem Memory.read_write (m : Memory) (k j : Nat) (b : Byte) :
    Memory.read (Memory.write m k b) j = if j = k then b else Memory.read m j :=
  Cells.read_write m k j b

theorem Memory.wf_write {size k : Nat} {m : Memory} (b : Byte) (hk : k < size)
    (hm : Memory.wf size m = true) : Memory.wf size (Memory.write m k b) = true :=
  Cells.wf_write b hk hm

theorem Memory.read_outside {size k : Nat} {m : Memory} (hm : Memory.wf size m = true) (hk : size ≤ k) :
    Memory.read m k = 0#8 :=
  Cells.read_outside hm hk

theorem Memory.ext {size : Nat} {m n : Memory} (hm : Memory.wf size m = true) (hn : Memory.wf size n = true)
    (h : ∀ k, Memory.read m k = Memory.read n k) : m = n :=
  Cells.ext hm hn h

@[simp] theorem Memory.readBlock_length (m : Memory) (a n : Nat) : (Memory.readBlock m a n).length = n := by
  induction n generalizing a with
  | zero => rfl
  | succ n ih => simp [Memory.readBlock, ih]

theorem Memory.readBlock_getD (m : Memory) (a n k : Nat) (d : Byte) (hk : k < n) :
    (Memory.readBlock m a n).getD k d = Memory.read m (a + k) := by
  induction n generalizing a k with
  | zero => omega
  | succ n ih =>
    cases k with
    | zero => rfl
    | succ k =>
      simp only [Memory.readBlock, List.getD_cons_succ]
      rw [ih (a + 1) k (by omega)]; congr 1; omega

theorem Memory.readBlock_congr {m m' : Memory} {a n : Nat}
    (h : ∀ k, a ≤ k → k < a + n → Memory.read m k = Memory.read m' k) :
    Memory.readBlock m a n = Memory.readBlock m' a n := by
  induction n generalizing a with
  | zero => rfl
  | succ n ih =>
    simp only [Memory.readBlock]
    rw [h a (by omega) (by omega), ih fun k h1 h2 => h k (by omega) (by omega)]

theorem Memory.readBlock_add (m : Memory) (a n p : Nat) :
    Memory.readBlock m a (n + p) = Memory.readBlock m a n ++ Memory.readBlock m (a + n) p := by
  induction n generalizing a with
  | zero => simp [Memory.readBlock]
  | succ n ih =>
    rw [show n + 1 + p = (n + p) + 1 by omega]
    simp only [Memory.readBlock, List.cons_append, ih]
    rw [show a + 1 + n = a + (n + 1) by omega]

/-- All a block write can do: the bytes at `a .. a+len(s)-1` are those of `s`, every other byte is as before. -/
theorem Memory.read_writeBlock (m : Memory) (a : Nat) (s : List Byte) (k : Nat) :
    Memory.read (Memory.writeBlock m a s) k =
      if a ≤ k ∧ k < a + s.length then s.getD (k - a) 0#8 else Memory.read m k := by
  induction s generalizing m a with
  | nil => simp [Memory.writeBlock]
  | cons b s ih =>
    simp only [Memory.writeBlock, ih, Memory.read_write, List.length_cons]
    by_cases hk : k = a
    · subst hk; simp
    · by_cases h : a + 1 ≤ k ∧ k < a + 1 + s.length
      · rw [if_pos h, if_pos ⟨by omega, by omega⟩, show k - a = (k - (a + 1)) + 1 by omega,
          List.getD_cons_succ]
      · rw [if_neg h, if_neg hk, if_neg (by omega)]

theorem Memory.wf_writeBlock {size a : Nat} {m : Memory} {s : List Byte} (h : a + s.length ≤ size)
    (hm : Memory.wf size m = true) : Memory.wf size (Memory.writeBlock m a s) = true := by
  induction s generalizing m a with
  | nil => exact hm
  | cons b s ih =>
    simp only [List.length_cons] at h
    exact ih (by omega) (Memory.wf_write b (by omega) hm)

/-- Reading back what a block write wrote. -/
theorem Memory.readBlock_writeBlock (m : Memory) (a : Nat) (s : List Byte) :
    Memory.readBlock (Memory.writeBlock m a s) a s.length = s := by
  refine List.ext_getElem (by simp) fun k h1 h2 => ?_
  have hk : k < s.length := h2
  have := Memory.readBlock_getD (Memory.writeBlock m a s) a s.length k 0#8 hk
  rw [List.getD_eq_getElem _ _ h1] at this
  rw [this, Memory.read_writeBlock, if_pos ⟨by omega, by omega⟩, Nat.add_sub_cancel_left,
    List.getD_eq_getElem _ _ h2]

/-- A block write outside a range leaves the block read there alone. -/
theorem Memory.readBlock_writeBlock_disjoint (m : Memory) (a b n : Nat) (s : List Byte)
    (h : b + n ≤ a ∨ a + s.length ≤ b) :
    Memory.readBlock (Memory.writeBlock m a s) b n = Memory.readBlock m b n := by
  refine Memory.readBlock_congr fun k h1 h2 => ?_
  rw [Memory.read_writeBlock, if_neg (by omega)]

end Sys2Proof.Machine
end

