-- ==== Sys2Proof/Laws/State.lean ====
section
/-! SUPPORT. One lemma per field per named update of the state, so that no later proof unfolds a record update. -/

namespace Sys2Proof.Machine

/-! ### The end of a command with an error -/

@[simp] theorem State.raise_ERR (e : Err) (info : Byte) (s : State) : (State.raise e info s).ERR = Err.code e := rfl
@[simp] theorem State.raise_EINFO (e : Err) (info : Byte) (s : State) : (State.raise e info s).EINFO = info := rfl
@[simp] theorem State.raise_EQ (e : Err) (info : Byte) (s : State) : (State.raise e info s).EQ = s.EQ := rfl
@[simp] theorem State.raise_ACC (e : Err) (info : Byte) (s : State) : (State.raise e info s).ACC = s.ACC := rfl
@[simp] theorem State.raise_STATE (e : Err) (info : Byte) (s : State) : (State.raise e info s).STATE = s.STATE := rfl
@[simp] theorem State.raise_CMD (e : Err) (info : Byte) (s : State) : (State.raise e info s).CMD = s.CMD := rfl
@[simp] theorem State.raise_LEN (e : Err) (info : Byte) (s : State) : (State.raise e info s).LEN = s.LEN := rfl
@[simp] theorem State.raise_SERIAL (e : Err) (info : Byte) (s : State) : (State.raise e info s).SERIAL = s.SERIAL := rfl
@[simp] theorem State.raise_HCRC (e : Err) (info : Byte) (s : State) : (State.raise e info s).HCRC = s.HCRC := rfl
@[simp] theorem State.raise_DCRC (e : Err) (info : Byte) (s : State) : (State.raise e info s).DCRC = s.DCRC := rfl
@[simp] theorem State.raise_DPRES (e : Err) (info : Byte) (s : State) : (State.raise e info s).DPRES = s.DPRES := rfl
@[simp] theorem State.raise_PLEN (e : Err) (info : Byte) (s : State) : (State.raise e info s).PLEN = s.PLEN := rfl
@[simp] theorem State.raise_FLEN (e : Err) (info : Byte) (s : State) : (State.raise e info s).FLEN = s.FLEN := rfl
@[simp] theorem State.raise_OFF (e : Err) (info : Byte) (s : State) : (State.raise e info s).OFF = s.OFF := rfl
@[simp] theorem State.raise_CNT (e : Err) (info : Byte) (s : State) : (State.raise e info s).CNT = s.CNT := rfl
@[simp] theorem State.raise_BLEN (e : Err) (info : Byte) (s : State) : (State.raise e info s).BLEN = s.BLEN := rfl
@[simp] theorem State.raise_WEN (e : Err) (info : Byte) (s : State) : (State.raise e info s).WEN = s.WEN := rfl
@[simp] theorem State.raise_VCNT (e : Err) (info : Byte) (s : State) : (State.raise e info s).VCNT = s.VCNT := rfl
@[simp] theorem State.raise_V (e : Err) (info : Byte) (s : State) : (State.raise e info s).V = s.V := rfl
@[simp] theorem State.raise_FB (e : Err) (info : Byte) (s : State) : (State.raise e info s).FB = s.FB := rfl
@[simp] theorem State.raise_PB (e : Err) (info : Byte) (s : State) : (State.raise e info s).PB = s.PB := rfl
@[simp] theorem State.raise_okStates (e : Err) (info : Byte) (s : State) : (State.raise e info s).okStates = s.okStates := rfl
@[simp] theorem State.raise_pending (e : Err) (info : Byte) (s : State) : (State.raise e info s).pending = s.pending := rfl
@[simp] theorem State.raise_returned (e : Err) (info : Byte) (s : State) : (State.raise e info s).returned = s.returned := rfl

/-! ### The end of a command without error -/

@[simp] theorem State.succeed_ERR (s : State) : (State.succeed s).ERR = 0x00#8 := rfl
@[simp] theorem State.succeed_EINFO (s : State) : (State.succeed s).EINFO = 0x00#8 := rfl
@[simp] theorem State.succeed_EQ (s : State) : (State.succeed s).EQ = s.EQ := rfl
@[simp] theorem State.succeed_ACC (s : State) : (State.succeed s).ACC = s.ACC := rfl
@[simp] theorem State.succeed_STATE (s : State) : (State.succeed s).STATE = s.STATE := rfl
@[simp] theorem State.succeed_CMD (s : State) : (State.succeed s).CMD = s.CMD := rfl
@[simp] theorem State.succeed_LEN (s : State) : (State.succeed s).LEN = s.LEN := rfl
@[simp] theorem State.succeed_SERIAL (s : State) : (State.succeed s).SERIAL = s.SERIAL := rfl
@[simp] theorem State.succeed_HCRC (s : State) : (State.succeed s).HCRC = s.HCRC := rfl
@[simp] theorem State.succeed_DCRC (s : State) : (State.succeed s).DCRC = s.DCRC := rfl
@[simp] theorem State.succeed_DPRES (s : State) : (State.succeed s).DPRES = s.DPRES := rfl
@[simp] theorem State.succeed_PLEN (s : State) : (State.succeed s).PLEN = s.PLEN := rfl
@[simp] theorem State.succeed_FLEN (s : State) : (State.succeed s).FLEN = s.FLEN := rfl
@[simp] theorem State.succeed_OFF (s : State) : (State.succeed s).OFF = s.OFF := rfl
@[simp] theorem State.succeed_CNT (s : State) : (State.succeed s).CNT = s.CNT := rfl
@[simp] theorem State.succeed_BLEN (s : State) : (State.succeed s).BLEN = s.BLEN := rfl
@[simp] theorem State.succeed_WEN (s : State) : (State.succeed s).WEN = s.WEN := rfl
@[simp] theorem State.succeed_VCNT (s : State) : (State.succeed s).VCNT = s.VCNT := rfl
@[simp] theorem State.succeed_V (s : State) : (State.succeed s).V = s.V := rfl
@[simp] theorem State.succeed_FB (s : State) : (State.succeed s).FB = s.FB := rfl
@[simp] theorem State.succeed_PB (s : State) : (State.succeed s).PB = s.PB := rfl
@[simp] theorem State.succeed_okStates (s : State) : (State.succeed s).okStates = s.okStates := rfl
@[simp] theorem State.succeed_pending (s : State) : (State.succeed s).pending = s.pending := rfl
@[simp] theorem State.succeed_returned (s : State) : (State.succeed s).returned = s.returned := rfl

/-! ### Reset -/

@[simp] theorem State.clear_ERR (s : State) : (State.clear s).ERR = 0x00#8 := rfl
@[simp] theorem State.clear_EINFO (s : State) : (State.clear s).EINFO = 0x00#8 := rfl
@[simp] theorem State.clear_EQ (s : State) : (State.clear s).EQ = 0#1 := rfl
@[simp] theorem State.clear_ACC (s : State) : (State.clear s).ACC = 0x00#8 := rfl
@[simp] theorem State.clear_STATE (s : State) : (State.clear s).STATE = 0x00#8 := rfl
@[simp] theorem State.clear_CMD (s : State) : (State.clear s).CMD = 0x00#8 := rfl
@[simp] theorem State.clear_LEN (s : State) : (State.clear s).LEN = 0x00#8 := rfl
@[simp] theorem State.clear_SERIAL (s : State) : (State.clear s).SERIAL = 0#24 := rfl
@[simp] theorem State.clear_HCRC (s : State) : (State.clear s).HCRC = 0x00#8 := rfl
@[simp] theorem State.clear_DCRC (s : State) : (State.clear s).DCRC = 0x00#8 := rfl
@[simp] theorem State.clear_DPRES (s : State) : (State.clear s).DPRES = 0#1 := rfl
@[simp] theorem State.clear_PLEN (s : State) : (State.clear s).PLEN = 0#8 := rfl
@[simp] theorem State.clear_FLEN (s : State) : (State.clear s).FLEN = 0#9 := rfl
@[simp] theorem State.clear_OFF (s : State) : (State.clear s).OFF = 0#9 := rfl
@[simp] theorem State.clear_CNT (s : State) : (State.clear s).CNT = 0#9 := rfl
@[simp] theorem State.clear_BLEN (s : State) : (State.clear s).BLEN = 0#8 := rfl
@[simp] theorem State.clear_WEN (s : State) : (State.clear s).WEN = 0#1 := rfl
@[simp] theorem State.clear_VCNT (s : State) : (State.clear s).VCNT = 0#8 := rfl
@[simp] theorem State.clear_V (s : State) : (State.clear s).V = [] := rfl
@[simp] theorem State.clear_FB (s : State) : (State.clear s).FB = [] := rfl
@[simp] theorem State.clear_PB (s : State) : (State.clear s).PB = [] := rfl
@[simp] theorem State.clear_okStates (s : State) : (State.clear s).okStates = s.okStates := rfl
@[simp] theorem State.clear_pending (s : State) : (State.clear s).pending = s.pending := rfl
@[simp] theorem State.clear_returned (s : State) : (State.clear s).returned = s.returned := rfl

/-! ### The writes of `HDR.PACK` -/

@[simp] theorem packHeader_ERR (s : State) : (packHeader s).ERR = s.ERR := rfl
@[simp] theorem packHeader_EINFO (s : State) : (packHeader s).EINFO = s.EINFO := rfl
@[simp] theorem packHeader_EQ (s : State) : (packHeader s).EQ = s.EQ := rfl
@[simp] theorem packHeader_ACC (s : State) : (packHeader s).ACC = s.ACC := rfl
@[simp] theorem packHeader_STATE (s : State) : (packHeader s).STATE = s.STATE := rfl
@[simp] theorem packHeader_CMD (s : State) : (packHeader s).CMD = s.CMD := rfl
@[simp] theorem packHeader_LEN (s : State) : (packHeader s).LEN = s.LEN := rfl
@[simp] theorem packHeader_SERIAL (s : State) : (packHeader s).SERIAL = s.SERIAL := rfl
@[simp] theorem packHeader_HCRC (s : State) : (packHeader s).HCRC = crc8 (hdr6 s.STATE s.CMD s.LEN s.SERIAL) := rfl
@[simp] theorem packHeader_DCRC (s : State) : (packHeader s).DCRC = s.DCRC := rfl
@[simp] theorem packHeader_DPRES (s : State) : (packHeader s).DPRES = s.DPRES := rfl
@[simp] theorem packHeader_PLEN (s : State) : (packHeader s).PLEN = s.PLEN := rfl
@[simp] theorem packHeader_FLEN (s : State) : (packHeader s).FLEN = 7#9 := rfl
@[simp] theorem packHeader_OFF (s : State) : (packHeader s).OFF = s.OFF := rfl
@[simp] theorem packHeader_CNT (s : State) : (packHeader s).CNT = s.CNT := rfl
@[simp] theorem packHeader_BLEN (s : State) : (packHeader s).BLEN = s.BLEN := rfl
@[simp] theorem packHeader_WEN (s : State) : (packHeader s).WEN = s.WEN := rfl
@[simp] theorem packHeader_VCNT (s : State) : (packHeader s).VCNT = s.VCNT := rfl
@[simp] theorem packHeader_V (s : State) : (packHeader s).V = s.V := rfl
@[simp] theorem packHeader_FB (s : State) : (packHeader s).FB = Memory.writeBlock s.FB 0 (hdr s.STATE s.CMD s.LEN s.SERIAL) := rfl
@[simp] theorem packHeader_PB (s : State) : (packHeader s).PB = s.PB := rfl
@[simp] theorem packHeader_okStates (s : State) : (packHeader s).okStates = s.okStates := rfl
@[simp] theorem packHeader_pending (s : State) : (packHeader s).pending = s.pending := rfl
@[simp] theorem packHeader_returned (s : State) : (packHeader s).returned = s.returned := rfl

/-! ### The header registers of a decoded header -/

@[simp] theorem unpackHeader_ERR (st cm ln hc : Byte) (se : BitVec 24) (s : State) : (unpackHeader st cm ln se hc s).ERR = s.ERR := rfl
@[simp] theorem unpackHeader_EINFO (st cm ln hc : Byte) (se : BitVec 24) (s : State) : (unpackHeader st cm ln se hc s).EINFO = s.EINFO := rfl
@[simp] theorem unpackHeader_EQ (st cm ln hc : Byte) (se : BitVec 24) (s : State) : (unpackHeader st cm ln se hc s).EQ = s.EQ := rfl
@[simp] theorem unpackHeader_ACC (st cm ln hc : Byte) (se : BitVec 24) (s : State) : (unpackHeader st cm ln se hc s).ACC = s.ACC := rfl
@[simp] theorem unpackHeader_STATE (st cm ln hc : Byte) (se : BitVec 24) (s : State) : (unpackHeader st cm ln se hc s).STATE = st := rfl
@[simp] theorem unpackHeader_CMD (st cm ln hc : Byte) (se : BitVec 24) (s : State) : (unpackHeader st cm ln se hc s).CMD = cm := rfl
@[simp] theorem unpackHeader_LEN (st cm ln hc : Byte) (se : BitVec 24) (s : State) : (unpackHeader st cm ln se hc s).LEN = ln := rfl
@[simp] theorem unpackHeader_SERIAL (st cm ln hc : Byte) (se : BitVec 24) (s : State) : (unpackHeader st cm ln se hc s).SERIAL = se := rfl
@[simp] theorem unpackHeader_HCRC (st cm ln hc : Byte) (se : BitVec 24) (s : State) : (unpackHeader st cm ln se hc s).HCRC = hc := rfl
@[simp] theorem unpackHeader_DCRC (st cm ln hc : Byte) (se : BitVec 24) (s : State) : (unpackHeader st cm ln se hc s).DCRC = s.DCRC := rfl
@[simp] theorem unpackHeader_DPRES (st cm ln hc : Byte) (se : BitVec 24) (s : State) : (unpackHeader st cm ln se hc s).DPRES = s.DPRES := rfl
@[simp] theorem unpackHeader_PLEN (st cm ln hc : Byte) (se : BitVec 24) (s : State) : (unpackHeader st cm ln se hc s).PLEN = s.PLEN := rfl
@[simp] theorem unpackHeader_FLEN (st cm ln hc : Byte) (se : BitVec 24) (s : State) : (unpackHeader st cm ln se hc s).FLEN = s.FLEN := rfl
@[simp] theorem unpackHeader_OFF (st cm ln hc : Byte) (se : BitVec 24) (s : State) : (unpackHeader st cm ln se hc s).OFF = s.OFF := rfl
@[simp] theorem unpackHeader_CNT (st cm ln hc : Byte) (se : BitVec 24) (s : State) : (unpackHeader st cm ln se hc s).CNT = s.CNT := rfl
@[simp] theorem unpackHeader_BLEN (st cm ln hc : Byte) (se : BitVec 24) (s : State) : (unpackHeader st cm ln se hc s).BLEN = s.BLEN := rfl
@[simp] theorem unpackHeader_WEN (st cm ln hc : Byte) (se : BitVec 24) (s : State) : (unpackHeader st cm ln se hc s).WEN = s.WEN := rfl
@[simp] theorem unpackHeader_VCNT (st cm ln hc : Byte) (se : BitVec 24) (s : State) : (unpackHeader st cm ln se hc s).VCNT = s.VCNT := rfl
@[simp] theorem unpackHeader_V (st cm ln hc : Byte) (se : BitVec 24) (s : State) : (unpackHeader st cm ln se hc s).V = s.V := rfl
@[simp] theorem unpackHeader_FB (st cm ln hc : Byte) (se : BitVec 24) (s : State) : (unpackHeader st cm ln se hc s).FB = s.FB := rfl
@[simp] theorem unpackHeader_PB (st cm ln hc : Byte) (se : BitVec 24) (s : State) : (unpackHeader st cm ln se hc s).PB = s.PB := rfl
@[simp] theorem unpackHeader_okStates (st cm ln hc : Byte) (se : BitVec 24) (s : State) : (unpackHeader st cm ln se hc s).okStates = s.okStates := rfl
@[simp] theorem unpackHeader_pending (st cm ln hc : Byte) (se : BitVec 24) (s : State) : (unpackHeader st cm ln se hc s).pending = s.pending := rfl
@[simp] theorem unpackHeader_returned (st cm ln hc : Byte) (se : BitVec 24) (s : State) : (unpackHeader st cm ln se hc s).returned = s.returned := rfl

/-! ### The data block of a decoded frame -/

@[simp] theorem unpackData_ERR (d : Option (List Byte)) (c : Byte) (s : State) : (unpackData d c s).ERR = s.ERR := by
  cases d <;> rfl
@[simp] theorem unpackData_EINFO (d : Option (List Byte)) (c : Byte) (s : State) : (unpackData d c s).EINFO = s.EINFO := by
  cases d <;> rfl
@[simp] theorem unpackData_EQ (d : Option (List Byte)) (c : Byte) (s : State) : (unpackData d c s).EQ = s.EQ := by
  cases d <;> rfl
@[simp] theorem unpackData_ACC (d : Option (List Byte)) (c : Byte) (s : State) : (unpackData d c s).ACC = s.ACC := by
  cases d <;> rfl
@[simp] theorem unpackData_STATE (d : Option (List Byte)) (c : Byte) (s : State) : (unpackData d c s).STATE = s.STATE := by
  cases d <;> rfl
@[simp] theorem unpackData_CMD (d : Option (List Byte)) (c : Byte) (s : State) : (unpackData d c s).CMD = s.CMD := by
  cases d <;> rfl
@[simp] theorem unpackData_LEN (d : Option (List Byte)) (c : Byte) (s : State) : (unpackData d c s).LEN = s.LEN := by
  cases d <;> rfl
@[simp] theorem unpackData_SERIAL (d : Option (List Byte)) (c : Byte) (s : State) : (unpackData d c s).SERIAL = s.SERIAL := by
  cases d <;> rfl
@[simp] theorem unpackData_HCRC (d : Option (List Byte)) (c : Byte) (s : State) : (unpackData d c s).HCRC = s.HCRC := by
  cases d <;> rfl
@[simp] theorem unpackData_FLEN (d : Option (List Byte)) (c : Byte) (s : State) : (unpackData d c s).FLEN = s.FLEN := by
  cases d <;> rfl
@[simp] theorem unpackData_OFF (d : Option (List Byte)) (c : Byte) (s : State) : (unpackData d c s).OFF = s.OFF := by
  cases d <;> rfl
@[simp] theorem unpackData_CNT (d : Option (List Byte)) (c : Byte) (s : State) : (unpackData d c s).CNT = s.CNT := by
  cases d <;> rfl
@[simp] theorem unpackData_BLEN (d : Option (List Byte)) (c : Byte) (s : State) : (unpackData d c s).BLEN = s.BLEN := by
  cases d <;> rfl
@[simp] theorem unpackData_WEN (d : Option (List Byte)) (c : Byte) (s : State) : (unpackData d c s).WEN = s.WEN := by
  cases d <;> rfl
@[simp] theorem unpackData_VCNT (d : Option (List Byte)) (c : Byte) (s : State) : (unpackData d c s).VCNT = s.VCNT := by
  cases d <;> rfl
@[simp] theorem unpackData_V (d : Option (List Byte)) (c : Byte) (s : State) : (unpackData d c s).V = s.V := by
  cases d <;> rfl
@[simp] theorem unpackData_FB (d : Option (List Byte)) (c : Byte) (s : State) : (unpackData d c s).FB = s.FB := by
  cases d <;> rfl
@[simp] theorem unpackData_okStates (d : Option (List Byte)) (c : Byte) (s : State) : (unpackData d c s).okStates = s.okStates := by
  cases d <;> rfl
@[simp] theorem unpackData_pending (d : Option (List Byte)) (c : Byte) (s : State) : (unpackData d c s).pending = s.pending := by
  cases d <;> rfl
@[simp] theorem unpackData_returned (d : Option (List Byte)) (c : Byte) (s : State) : (unpackData d c s).returned = s.returned := by
  cases d <;> rfl

/-! ### The writes of `DAT.PACK` -/

@[simp] theorem packData_ERR (s : State) : (packData s).ERR = s.ERR := by
  unfold packData; split <;> rfl
@[simp] theorem packData_EINFO (s : State) : (packData s).EINFO = s.EINFO := by
  unfold packData; split <;> rfl
@[simp] theorem packData_EQ (s : State) : (packData s).EQ = s.EQ := by
  unfold packData; split <;> rfl
@[simp] theorem packData_ACC (s : State) : (packData s).ACC = s.ACC := by
  unfold packData; split <;> rfl
@[simp] theorem packData_STATE (s : State) : (packData s).STATE = s.STATE := by
  unfold packData; split <;> rfl
@[simp] theorem packData_CMD (s : State) : (packData s).CMD = s.CMD := by
  unfold packData; split <;> rfl
@[simp] theorem packData_LEN (s : State) : (packData s).LEN = s.LEN := by
  unfold packData; split <;> rfl
@[simp] theorem packData_SERIAL (s : State) : (packData s).SERIAL = s.SERIAL := by
  unfold packData; split <;> rfl
@[simp] theorem packData_HCRC (s : State) : (packData s).HCRC = s.HCRC := by
  unfold packData; split <;> rfl
@[simp] theorem packData_DPRES (s : State) : (packData s).DPRES = s.DPRES := by
  unfold packData; split <;> rfl
@[simp] theorem packData_PLEN (s : State) : (packData s).PLEN = s.PLEN := by
  unfold packData; split <;> rfl
@[simp] theorem packData_OFF (s : State) : (packData s).OFF = s.OFF := by
  unfold packData; split <;> rfl
@[simp] theorem packData_CNT (s : State) : (packData s).CNT = s.CNT := by
  unfold packData; split <;> rfl
@[simp] theorem packData_BLEN (s : State) : (packData s).BLEN = s.BLEN := by
  unfold packData; split <;> rfl
@[simp] theorem packData_WEN (s : State) : (packData s).WEN = s.WEN := by
  unfold packData; split <;> rfl
@[simp] theorem packData_VCNT (s : State) : (packData s).VCNT = s.VCNT := by
  unfold packData; split <;> rfl
@[simp] theorem packData_V (s : State) : (packData s).V = s.V := by
  unfold packData; split <;> rfl
@[simp] theorem packData_PB (s : State) : (packData s).PB = s.PB := by
  unfold packData; split <;> rfl
@[simp] theorem packData_okStates (s : State) : (packData s).okStates = s.okStates := by
  unfold packData; split <;> rfl
@[simp] theorem packData_pending (s : State) : (packData s).pending = s.pending := by
  unfold packData; split <;> rfl
@[simp] theorem packData_returned (s : State) : (packData s).returned = s.returned := by
  unfold packData; split <;> rfl

theorem unpackData_none (c : Byte) (s : State) :
    unpackData none c s = { s with DPRES := 0#1, PLEN := 0#8, DCRC := 0x00#8 } := rfl

theorem unpackData_some (p : List Byte) (c : Byte) (s : State) :
    unpackData (some p) c s =
      { s with PB := Memory.writeBlock s.PB 0 p, PLEN := BitVec.ofNat 8 p.length, DPRES := 1#1, DCRC := c } := rfl

theorem packData_absent {s : State} (h : dataPresent s = false) :
    packData s = { s with DCRC := 0x00#8, FLEN := 7#9 } := by
  simp [packData, h]

theorem packData_present {s : State} (h : dataPresent s = true) :
    packData s =
      { s with
        FB := Memory.writeBlock s.FB 7 (blk (payload s))
        DCRC := crc8 (payload s)
        FLEN := BitVec.ofNat 9 (8 + s.PLEN.toNat) } := by
  simp [packData, h]

end Sys2Proof.Machine
end

