-- ==== Sys2Proof/Laws/Operands.lean ====
section
/-! SUPPORT. What each operand form, check and loop of the units says or does, once. -/

namespace Sys2Proof.Machine

/-! ### Byte sequences -/

@[simp] theorem leBytes_length {w : Nat} (n : Nat) (v : BitVec w) : (leBytes n v).length = n := by
  induction n generalizing v with
  | zero => rfl
  | succ n ih => simp [leBytes, ih]

/-- Byte `k` of `leBytes n v` is `v[8k+7:8k]` (R10). -/
theorem leBytes_getD {w : Nat} (n : Nat) (v : BitVec w) (k : Nat) (d : Byte) (hk : k < n) :
    (leBytes n v).getD k d = v.extractLsb' (8 * k) 8 := by
  induction n generalizing v k with
  | zero => omega
  | succ n ih =>
    cases k with
    | zero =>
      simp only [leBytes, List.getD_cons_zero]
      ext i hi
      simp
    | succ k =>
      simp only [leBytes, List.getD_cons_succ]
      rw [ih _ k (by omega)]
      ext i hi
      simp [show 8 * (k + 1) + i = 8 + (8 * k + i) by omega]

theorem fromLe_lt (s : List Byte) : fromLe s < 2 ^ (8 * s.length) := by
  induction s with
  | nil => simp [fromLe]
  | cons b s ih =>
    have hb := b.isLt
    simp only [fromLe, List.length_cons, Nat.mul_add, Nat.mul_one, Nat.pow_add]
    omega

@[simp] theorem ScalarType.enc_length (t : ScalarType) (v : Word) :
    (ScalarType.enc t v).length = ScalarType.size t := leBytes_length _ _

@[simp] theorem hdr6_length (st cm ln : Byte) (se : BitVec 24) : (hdr6 st cm ln se).length = 6 := by
  simp [hdr6]

@[simp] theorem hdr_length (st cm ln : Byte) (se : BitVec 24) : (hdr st cm ln se).length = 7 := by
  simp [hdr]

@[simp] theorem blk_length (p : List Byte) : (blk p).length = p.length + 1 := by
  simp [blk]

@[simp] theorem payload_length (s : State) : (payload s).length = s.PLEN.toNat := by
  simp [payload]

theorem check_concat (s : List Byte) (c : Byte) : check (s ++ [c]) = (crc8 s == c) := by
  simp [check]

theorem check_nil : check [] = false := rfl

/-! ### Checks of operands -/

theorem rangeOutside_iff (b : Buf) (s : State) :
    rangeOutside b s = true ↔ bufSize b < bufLen b s ∨ bufLen b s < s.OFF.toNat + s.CNT.toNat := by
  simp [rangeOutside]

theorem ScalarType.size_pos (t : ScalarType) : 0 < ScalarType.size t := by cases t <;> decide

/-- Where R203 gives an element count, the elements fill `BLEN` exactly, and a scalar is one element. -/
theorem elementCount_some {t : ScalarType} {arr : Bool} {blen n : Nat} (h : elementCount t arr blen = some n) :
    blen = n * ScalarType.size t ∧ (arr = false → n = 1) := by
  unfold elementCount at h
  split at h
  · cases h
  · rename_i h0
    split at h
    · cases h
    · rename_i h1
      cases h
      refine ⟨?_, fun ha => ?_⟩
      · exact (Nat.div_mul_cancel (Nat.dvd_of_mod_eq_zero (Decidable.not_not.mp h0))).symm
      · exact Decidable.not_not.mp fun hn => h1 ⟨ha, hn⟩

theorem elementCount_none {t : ScalarType} {arr : Bool} {blen : Nat} :
    elementCount t arr blen = none ↔
      blen % ScalarType.size t ≠ 0 ∨ (arr = false ∧ blen / ScalarType.size t ≠ 1) := by
  unfold elementCount
  split
  · simp_all
  · split <;> simp_all

theorem allCanonical_iff (t : ScalarType) (v : Cells 64) (n : Nat) :
    allCanonical t v n = true ↔ ∀ i, i < n → ScalarType.canonical t (Cells.read v i) = true := by
  induction n with
  | zero => simp [allCanonical]
  | succ n ih =>
    simp only [allCanonical, Bool.and_eq_true, ih]
    constructor
    · rintro ⟨h1, h2⟩ i hi
      rcases Nat.lt_succ_iff_lt_or_eq.mp hi with h | h
      · exact h1 i h
      · exact h ▸ h2
    · exact fun h => ⟨fun i hi => h i (by omega), h n (by omega)⟩

/-! ### The loops of the value unit -/

/-- All the loop of R210 can do: the bytes of the elements are written in place, every other byte is as before. -/
theorem read_storeElements (t : ScalarType) (v : Cells 64) (off : Nat) (pb : Memory) (n k : Nat) :
    Memory.read (storeElements t v off pb n) k =
      if off ≤ k ∧ k < off + n * ScalarType.size t then
        (ScalarType.enc t (Cells.read v ((k - off) / ScalarType.size t))).getD ((k - off) % ScalarType.size t) 0#8
      else Memory.read pb k := by
  have hs := ScalarType.size_pos t
  induction n with
  | zero => rw [if_neg (by omega)]; rfl
  | succ n ih =>
    simp only [storeElements, Memory.read_writeBlock, ScalarType.enc_length, ih, Nat.succ_mul]
    by_cases h : off + n * ScalarType.size t ≤ k ∧ k < off + n * ScalarType.size t + ScalarType.size t
    · have hd : (k - off) / ScalarType.size t = n := by
        rw [Nat.div_eq_iff hs]; rw [Nat.mul_comm] at h; constructor
        · rw [Nat.mul_comm]; omega
        · rw [Nat.mul_comm]; omega
      have hm : (k - off) % ScalarType.size t = k - (off + n * ScalarType.size t) := by
        have := Nat.div_add_mod (k - off) (ScalarType.size t)
        rw [hd, Nat.mul_comm] at this; omega
      rw [if_pos h, if_pos (by omega), hd, hm]
    · rw [if_neg h]
      by_cases h2 : off ≤ k ∧ k < off + n * ScalarType.size t
      · rw [if_pos h2, if_pos (by omega)]
      · rw [if_neg h2, if_neg (by omega)]

theorem wf_storeElements {size : Nat} (t : ScalarType) (v : Cells 64) (off : Nat) {pb : Memory} (n : Nat)
    (h : off + n * ScalarType.size t ≤ size) (hm : Memory.wf size pb = true) :
    Memory.wf size (storeElements t v off pb n) = true := by
  induction n with
  | zero => exact hm
  | succ n ih =>
    rw [Nat.succ_mul] at h
    exact Memory.wf_writeBlock (by rw [ScalarType.enc_length]; omega) (ih (by omega))

/-- All the loop of R211 can do: the containers of the elements are written, every other container is as before. -/
theorem read_loadElements (t : ScalarType) (pb : Memory) (off : Nat) (v : Cells 64) (n i : Nat) :
    Cells.read (loadElements t pb off v n) i =
      if i < n then
        ScalarType.dec t (Memory.readBlock pb (off + i * ScalarType.size t) (ScalarType.size t))
      else Cells.read v i := by
  induction n with
  | zero => rfl
  | succ n ih =>
    simp only [loadElements, Cells.read_write, ih]
    by_cases h : i = n
    · subst h; rw [if_pos rfl, if_pos (by omega)]
    · rw [if_neg h]
      by_cases h2 : i < n
      · rw [if_pos h2, if_pos (by omega)]
      · rw [if_neg h2, if_neg (by omega)]

theorem wf_loadElements {size : Nat} (t : ScalarType) (pb : Memory) (off : Nat) {v : Cells 64} (n : Nat)
    (h : n ≤ size) (hv : Cells.wf size v = true) : Cells.wf size (loadElements t pb off v n) = true := by
  induction n with
  | zero => exact hv
  | succ n ih => exact Cells.wf_write _ (by omega) (ih (by omega))

end Sys2Proof.Machine
end

