-- ==== Sys2Proof/Laws/Commands.lean ====
section
/-! SUPPORT. Inversion of the shared bodies: every way they can end, with the checks that led there. -/

namespace Sys2Proof.Machine

/-- Every way `decode` (R169) can succeed: without a data block or with one, and the checks it passed. -/
theorem decodeFrame_ok {ok : Config.OkStates} {f : List Byte} {r : DecodedFrame}
    (h : decodeFrame ok f = .ok r) :
    7 ≤ f.length ∧ check (sub f 0 6) = true ∧ okState ok (f.getD 0 0#8) = true ∧
      f.length = 7 + (f.getD 2 0#8).toNat ∧
      r.state = f.getD 0 0#8 ∧ r.cmd = f.getD 1 0#8 ∧ r.len = f.getD 2 0#8 ∧
      r.serial = BitVec.ofNat 24 (fromLe (sub f 3 5)) ∧
      ((f.getD 2 0#8 = 0#8 ∧ r.data = none) ∨
        (f.getD 2 0#8 ≠ 0#8 ∧ check (sub f 7 (6 + (f.getD 2 0#8).toNat)) = true ∧
          (f.getD 2 0#8).toNat - 1 ≤ 252 ∧ r.data = some (sub f 7 (5 + (f.getD 2 0#8).toNat)))) := by
  unfold decodeFrame at h
  split at h; · cases h
  rename_i h1
  split at h; · cases h
  rename_i h2
  split at h; · cases h
  rename_i h3
  split at h; · cases h
  rename_i h4
  refine ⟨by simpa using h1, by simpa using h2, by simpa using h3, Decidable.not_not.mp h4, ?_⟩
  split at h
  · rename_i h5
    cases h
    exact ⟨rfl, rfl, rfl, rfl, .inl ⟨h5, rfl⟩⟩
  · rename_i h5
    split at h; · cases h
    rename_i h6
    split at h; · cases h
    rename_i h7
    cases h
    exact ⟨rfl, rfl, rfl, rfl, .inr ⟨h5, by simpa using h6, by simpa using h7, rfl⟩⟩

/-- `decode` fails only with the five errors of R169, and reports detail only with `DeviceStatus` (R173). -/
theorem decodeFrame_error {ok : Config.OkStates} {f : List Byte} {e : Err} {info : Byte}
    (h : decodeFrame ok f = .error (e, info)) :
    (e = .deviceStatus ∧ okState ok info = false ∧ info = f.getD 0 0#8) ∨
      (info = 0x00#8 ∧ (e = .lengthFieldMismatch ∨ e = .badHeaderCrc ∨ e = .badDataCrc ∨ e = .oversize)) := by
  unfold decodeFrame at h
  split at h
  · cases h; exact .inr ⟨rfl, .inl rfl⟩
  split at h
  · cases h; exact .inr ⟨rfl, .inr (.inl rfl)⟩
  split at h
  · rename_i h3; cases h; exact .inl ⟨rfl, by simpa using h3, rfl⟩
  split at h
  · cases h; exact .inr ⟨rfl, .inl rfl⟩
  split at h
  · cases h
  split at h
  · cases h; exact .inr ⟨rfl, .inr (.inr (.inl rfl))⟩
  split at h
  · cases h; exact .inr ⟨rfl, .inr (.inr (.inr rfl))⟩
  · cases h

/-- Every way `VAL.ENC.<T>` (R210) can end. -/
theorem valEnc_cases (t : ScalarType) (arr : Bool) (s : State) :
    (valEnc t arr s = fail .lengthMismatch 0x00#8 s) ∨
      (∃ n, elementCount t arr s.BLEN.toNat = some n ∧ s.VCNT.toNat = n ∧
        ((s.WEN = 0#1 ∧ valEnc t arr s = fail .notWritable 0x00#8 s) ∨
          (s.WEN ≠ 0#1 ∧ allCanonical t s.V (min n 252) = false ∧ valEnc t arr s = fail .valueRange 0x00#8 s) ∨
          (s.WEN ≠ 0#1 ∧ allCanonical t s.V (min n 252) = true ∧ 252 < s.OFF.toNat + s.BLEN.toNat ∧
            valEnc t arr s = fail .bufRange 0x00#8 s) ∨
          (s.WEN ≠ 0#1 ∧ allCanonical t s.V (min n 252) = true ∧ s.OFF.toNat + s.BLEN.toNat ≤ 252 ∧
            valEnc t arr s = done { s with PB := storeElements t s.V s.OFF.toNat s.PB n }))) := by
  unfold valEnc
  cases hn : elementCount t arr s.BLEN.toNat with
  | none => exact .inl rfl
  | some n =>
    simp only [Config.V_COUNT, Config.PB_SIZE]
    by_cases h1 : s.VCNT.toNat = n
    · right
      refine ⟨n, rfl, h1, ?_⟩
      rw [if_neg (by simpa using h1)]
      by_cases h2 : s.WEN = 0#1
      · exact .inl ⟨h2, if_pos h2⟩
      · rw [if_neg h2]
        cases h3 : allCanonical t s.V (min n 252) with
        | false => exact .inr (.inl ⟨h2, rfl, rfl⟩)
        | true =>
          by_cases h4 : 252 < s.OFF.toNat + s.BLEN.toNat
          · exact .inr (.inr (.inl ⟨h2, rfl, h4, by simp [h4]⟩))
          · exact .inr (.inr (.inr ⟨h2, rfl, by omega, by simp [h4]⟩))
    · exact .inl (if_pos (by simpa using h1))

/-- Every way `VAL.DEC.<T>` (R211) can end. -/
theorem valDec_cases (t : ScalarType) (arr : Bool) (s : State) :
    (elementCount t arr s.BLEN.toNat = none ∧ valDec t arr s = fail .lengthMismatch 0x00#8 s) ∨
      (∃ n, elementCount t arr s.BLEN.toNat = some n ∧
        (((252 < s.PLEN.toNat ∨ s.PLEN.toNat < s.OFF.toNat + s.BLEN.toNat) ∧
            valDec t arr s = fail .bufRange 0x00#8 s) ∨
          (s.PLEN.toNat ≤ 252 ∧ s.OFF.toNat + s.BLEN.toNat ≤ s.PLEN.toNat ∧
            valDec t arr s = done { s with V := loadElements t s.PB s.OFF.toNat s.V n, VCNT := BitVec.ofNat 8 n }))) := by
  unfold valDec
  cases hn : elementCount t arr s.BLEN.toNat with
  | none => exact .inl ⟨rfl, rfl⟩
  | some n =>
    right
    refine ⟨n, rfl, ?_⟩
    by_cases h : 252 < s.PLEN.toNat ∨ s.PLEN.toNat < s.OFF.toNat + s.BLEN.toNat
    · exact .inl ⟨h, if_pos h⟩
    · exact .inr ⟨by omega, by omega, if_neg h⟩

end Sys2Proof.Machine
end

