-- ==== Sys2Proof/Laws/PerInstr.lean ====
section
/-! SUPPORT. One fact about every instruction as syntax, case by case: its encoding matches the row of the opcode
map (30_encoding.md R92) that stands for it. -/

namespace Sys2Proof.Laws.MatchesRow

/-- The `match` and `mask` columns of the instruction's row of R92. -/
def row : Instr → CmdWord × CmdWord
  | .nop => (0x0000#16, 0xFFFF#16)
  | .rst => (0x0100#16, 0xFFFF#16)
  | .crcClr => (0x1000#16, 0xFFFF#16)
  | .crcUpd _ => (0x1100#16, 0xFF00#16)
  | .crcCmp _ => (0x1200#16, 0xFF00#16)
  | .crcCalc _ => (0x1300#16, 0xFFFE#16)
  | .crcCheck _ => (0x1400#16, 0xFFFE#16)
  | .hdrPack => (0x2000#16, 0xFFFF#16)
  | .hdrUnpack => (0x2100#16, 0xFFFF#16)
  | .datPack => (0x2200#16, 0xFFFF#16)
  | .datUnpack => (0x2300#16, 0xFFFF#16)
  | .frmEnc => (0x2400#16, 0xFFFF#16)
  | .frmDec => (0x2500#16, 0xFFFF#16)
  | .valEncU8 _ => (0x3000#16, 0xFF7F#16)
  | .valEncI8 _ => (0x3001#16, 0xFF7F#16)
  | .valEncU16 _ => (0x3002#16, 0xFF7F#16)
  | .valEncI16 _ => (0x3003#16, 0xFF7F#16)
  | .valEncU32 _ => (0x3004#16, 0xFF7F#16)
  | .valEncI32 _ => (0x3005#16, 0xFF7F#16)
  | .valEncF32 _ => (0x3006#16, 0xFF7F#16)
  | .valEncF64 _ => (0x3007#16, 0xFF7F#16)
  | .valDecU8 _ => (0x3100#16, 0xFF7F#16)
  | .valDecI8 _ => (0x3101#16, 0xFF7F#16)
  | .valDecU16 _ => (0x3102#16, 0xFF7F#16)
  | .valDecI16 _ => (0x3103#16, 0xFF7F#16)
  | .valDecU32 _ => (0x3104#16, 0xFF7F#16)
  | .valDecI32 _ => (0x3105#16, 0xFF7F#16)
  | .valDecF32 _ => (0x3106#16, 0xFF7F#16)
  | .valDecF64 _ => (0x3107#16, 0xFF7F#16)
  | .valEncRsvd08 _ _ => (0x3008#16, 0xFF78#16)
  | .valEncRsvd10 _ _ => (0x3010#16, 0xFF70#16)
  | .valEncRsvd20 _ _ => (0x3020#16, 0xFF60#16)
  | .valEncRsvd40 _ _ => (0x3040#16, 0xFF40#16)
  | .valDecRsvd08 _ _ => (0x3108#16, 0xFF78#16)
  | .valDecRsvd10 _ _ => (0x3110#16, 0xFF70#16)
  | .valDecRsvd20 _ _ => (0x3120#16, 0xFF60#16)
  | .valDecRsvd40 _ _ => (0x3140#16, 0xFF40#16)

/-- `(w and mask) = match` for the word `w` of a well-formed instruction (R91). -/
def Statement (i : Instr) : Prop := i.wellFormed = true → encode i &&& (row i).2 = (row i).1

theorem nop : Statement (.nop) := by unfold Statement; decide
theorem rst : Statement (.rst) := by unfold Statement; decide
theorem crcClr : Statement (.crcClr) := by unfold Statement; decide
theorem crcUpd (b : Byte) : Statement (.crcUpd b) := by unfold Statement; revert b; decide
theorem crcCmp (b : Byte) : Statement (.crcCmp b) := by unfold Statement; revert b; decide
theorem crcCalc (s : Buf) : Statement (.crcCalc s) := by unfold Statement; cases s <;> decide
theorem crcCheck (s : Buf) : Statement (.crcCheck s) := by unfold Statement; cases s <;> decide
theorem hdrPack : Statement (.hdrPack) := by unfold Statement; decide
theorem hdrUnpack : Statement (.hdrUnpack) := by unfold Statement; decide
theorem datPack : Statement (.datPack) := by unfold Statement; decide
theorem datUnpack : Statement (.datUnpack) := by unfold Statement; decide
theorem frmEnc : Statement (.frmEnc) := by unfold Statement; decide
theorem frmDec : Statement (.frmDec) := by unfold Statement; decide
theorem valEncU8 (arr : Bool) : Statement (.valEncU8 arr) := by unfold Statement; cases arr <;> decide
theorem valEncI8 (arr : Bool) : Statement (.valEncI8 arr) := by unfold Statement; cases arr <;> decide
theorem valEncU16 (arr : Bool) : Statement (.valEncU16 arr) := by unfold Statement; cases arr <;> decide
theorem valEncI16 (arr : Bool) : Statement (.valEncI16 arr) := by unfold Statement; cases arr <;> decide
theorem valEncU32 (arr : Bool) : Statement (.valEncU32 arr) := by unfold Statement; cases arr <;> decide
theorem valEncI32 (arr : Bool) : Statement (.valEncI32 arr) := by unfold Statement; cases arr <;> decide
theorem valEncF32 (arr : Bool) : Statement (.valEncF32 arr) := by unfold Statement; cases arr <;> decide
theorem valEncF64 (arr : Bool) : Statement (.valEncF64 arr) := by unfold Statement; cases arr <;> decide
theorem valDecU8 (arr : Bool) : Statement (.valDecU8 arr) := by unfold Statement; cases arr <;> decide
theorem valDecI8 (arr : Bool) : Statement (.valDecI8 arr) := by unfold Statement; cases arr <;> decide
theorem valDecU16 (arr : Bool) : Statement (.valDecU16 arr) := by unfold Statement; cases arr <;> decide
theorem valDecI16 (arr : Bool) : Statement (.valDecI16 arr) := by unfold Statement; cases arr <;> decide
theorem valDecU32 (arr : Bool) : Statement (.valDecU32 arr) := by unfold Statement; cases arr <;> decide
theorem valDecI32 (arr : Bool) : Statement (.valDecI32 arr) := by unfold Statement; cases arr <;> decide
theorem valDecF32 (arr : Bool) : Statement (.valDecF32 arr) := by unfold Statement; cases arr <;> decide
theorem valDecF64 (arr : Bool) : Statement (.valDecF64 arr) := by unfold Statement; cases arr <;> decide
theorem valEncRsvd08 (arr : Bool) (t : BitVec 7) : Statement (.valEncRsvd08 arr t) := by
  unfold Statement; revert t; cases arr <;> decide
theorem valEncRsvd10 (arr : Bool) (t : BitVec 7) : Statement (.valEncRsvd10 arr t) := by
  unfold Statement; revert t; cases arr <;> decide
theorem valEncRsvd20 (arr : Bool) (t : BitVec 7) : Statement (.valEncRsvd20 arr t) := by
  unfold Statement; revert t; cases arr <;> decide
theorem valEncRsvd40 (arr : Bool) (t : BitVec 7) : Statement (.valEncRsvd40 arr t) := by
  unfold Statement; revert t; cases arr <;> decide
theorem valDecRsvd08 (arr : Bool) (t : BitVec 7) : Statement (.valDecRsvd08 arr t) := by
  unfold Statement; revert t; cases arr <;> decide
theorem valDecRsvd10 (arr : Bool) (t : BitVec 7) : Statement (.valDecRsvd10 arr t) := by
  unfold Statement; revert t; cases arr <;> decide
theorem valDecRsvd20 (arr : Bool) (t : BitVec 7) : Statement (.valDecRsvd20 arr t) := by
  unfold Statement; revert t; cases arr <;> decide
theorem valDecRsvd40 (arr : Bool) (t : BitVec 7) : Statement (.valDecRsvd40 arr t) := by
  unfold Statement; revert t; cases arr <;> decide

end Sys2Proof.Laws.MatchesRow
end

