-- ==== Sys2Proof/Laws/Step.lean ====
section
/-! SUPPORT. What one step does, by the next access; and that the host's writes keep the canonical form. -/

namespace Sys2Proof.Machine

theorem commandOf_some {a : Access} {w : CmdWord} :
    commandOf a = some w ↔ ∃ x : Word, a = .write .reg 0 x ∧ w = x.setWidth 16 := by
  constructor
  · intro h
    unfold commandOf at h
    split at h
    · cases h; exact ⟨_, rfl, rfl⟩
    · cases h
  · rintro ⟨x, rfl, rfl⟩; rfl

@[simp] theorem commandOf_issue (w : CmdWord) : commandOf (issue w) = some w := by
  simp only [issue, commandOf, Option.some.injEq]
  ext i hi
  simp

/-- Every way a step can go: idle, a command, an illegal word, or an access that issues none. -/
theorem step_cases (s : State) :
    (s.pending = [] ∧ step s = .next s) ∨
      (∃ a rest, s.pending = a :: rest ∧
        ((∃ w i, commandOf a = some w ∧ decode w = .ok i ∧ step s = exec i { s with pending := rest }) ∨
          (∃ w why, commandOf a = some w ∧ decode w = .error why ∧
            step s = illegalWord w why { s with pending := rest }) ∨
          (commandOf a = none ∧ step s = .next (serveAccess a { s with pending := rest })))) := by
  unfold step
  cases hp : s.pending with
  | nil => exact .inl ⟨rfl, rfl⟩
  | cons a rest =>
    refine .inr ⟨a, rest, rfl, ?_⟩
    simp only [serve]
    cases hc : commandOf a with
    | none => exact .inr (.inr ⟨rfl, rfl⟩)
    | some w =>
      simp only [runWord]
      cases hd : decode w with
      | ok i => exact .inl ⟨w, i, rfl, hd, rfl⟩
      | error why => exact .inr (.inl ⟨w, why, rfl, hd, rfl⟩)

/-- A host write to a register leaves the spaces alone. -/
theorem writeReg_spaces (s : State) (k : Nat) (x : Word) :
    (State.writeReg s k x).V = s.V ∧ (State.writeReg s k x).FB = s.FB ∧ (State.writeReg s k x).PB = s.PB := by
  unfold State.writeReg
  split <;> exact ⟨rfl, rfl, rfl⟩

/-- A host write to a register leaves `ERR`, `EINFO` and the model's own fields alone (R254). -/
theorem writeReg_report (s : State) (k : Nat) (x : Word) :
    (State.writeReg s k x).ERR = s.ERR ∧ (State.writeReg s k x).EINFO = s.EINFO ∧
      (State.writeReg s k x).okStates = s.okStates ∧ (State.writeReg s k x).pending = s.pending ∧
      (State.writeReg s k x).returned = s.returned := by
  unfold State.writeReg
  split <;> exact ⟨rfl, rfl, rfl, rfl, rfl⟩

theorem spacesWf_iff (s : State) :
    State.spacesWf s = true ↔
      Cells.wf 252 s.V = true ∧ Memory.wf 262 s.FB = true ∧ Memory.wf 252 s.PB = true := by
  simp [State.spacesWf, and_assoc]

/-- Every access that issues no command keeps the canonical form of the three spaces. -/
theorem serveAccess_spacesWf (a : Access) {s : State} (h : State.spacesWf s = true) :
    State.spacesWf (serveAccess a s) = true := by
  rw [spacesWf_iff] at h ⊢
  cases a with
  | read sp k => exact h
  | hwReset => exact ⟨rfl, rfl, rfl⟩
  | write sp k x =>
    simp only [serveAccess, hostWrite]
    cases sp with
    | reg => rw [(writeReg_spaces s k x).1, (writeReg_spaces s k x).2.1, (writeReg_spaces s k x).2.2]; exact h
    | tbl => exact h
    | v =>
      simp only
      split
      · exact ⟨Cells.wf_write x ‹_› h.1, h.2⟩
      · exact h
    | fb =>
      simp only
      split
      · exact ⟨h.1, Memory.wf_write _ ‹_› h.2.1, h.2.2⟩
      · exact h
    | pb =>
      simp only
      split
      · exact ⟨h.1, h.2.1, Memory.wf_write _ ‹_› h.2.2⟩
      · exact h

end Sys2Proof.Machine
end

