-- ==== Sys2Proof/Tests/Slice0.lean ====
section
/-! SUPPORT. The model's own tests and the witnesses of the statements. Every expected value is one of
spec/95_test_vectors.md (its identifier stands beside the test) or is read from the rule cited. -/

namespace Sys2Proof.Tests

open Sys2Proof Sys2Proof.Machine Sys2Proof.Statement

/-! ### Helpers -/

/-- A space with the listed bytes from `a` on and 0 elsewhere. -/
def bytes (a : Nat) : List Byte → Memory
  | [] => []
  | b :: bs => if b = 0x00#8 then bytes (a + 1) bs else (a, b) :: bytes (a + 1) bs

/-- The outcome is a next state, and that state is `t`. -/
def nextIs (o : Host.Outcome State Fault Refusal) (t : State) : Bool :=
  match o with
  | .next u => decide (u = t)
  | _ => false

/-- The decoder answers `i`. -/
def reads (w : CmdWord) (i : Instr) : Bool :=
  match decode w with
  | .ok j => decide (j = i)
  | .error _ => false

/-- The decoder rejects the word under the name `why`. -/
def rejects (w : CmdWord) (why : Illegal) : Bool :=
  match decode w with
  | .ok _ => false
  | .error e => decide (e = why)

/-- The reset state with `FB` and `FLEN` loaded. -/
def frame (fb : List Byte) (flen : BitVec 9) : State := { State.reset with FB := bytes 0 fb, FLEN := flen }

/-- The reset state with `PB` and `PLEN` loaded. -/
def load (pb : List Byte) (plen : BitVec 8) : State := { State.reset with PB := bytes 0 pb, PLEN := plen }

/-- The reset state set up for an encode at offset 0: the value list, `BLEN`, `VCNT`, `WEN = 1`. -/
def values (v : Cells 64) (blen vcnt : BitVec 8) : State :=
  { State.reset with V := v, BLEN := blen, VCNT := vcnt, WEN := 1#1 }

/-- The reset state set up for a decode at offset 0: the payload, with `BLEN` and `PLEN` its length. -/
def wire (pb : List Byte) (n : BitVec 8) : State :=
  { State.reset with PB := bytes 0 pb, PLEN := n, BLEN := n }

/-- The frame of S2a: command 0x02 to serial 31001, no data block. -/
def frameS2a : List Byte := [0xFD#8, 0x02#8, 0x00#8, 0x19#8, 0x79#8, 0x00#8, 0x7B#8]

/-- The response frame of D-FRM-43: a payload of two bytes. -/
def frame43 : List Byte :=
  [0x00#8, 0x0A#8, 0x03#8, 0x19#8, 0x79#8, 0x00#8, 0xF5#8, 0x05#8, 0x00#8, 0xFF#8]

/-! ### Well-formedness: one ill-formed term for each check -/

theorem test_wellFormed_encRsvd08_low : Instr.wellFormed (.valEncRsvd08 false 0x07#7) = false := by decide
theorem test_wellFormed_encRsvd08_high : Instr.wellFormed (.valEncRsvd08 false 0x10#7) = false := by decide
theorem test_wellFormed_encRsvd10 : Instr.wellFormed (.valEncRsvd10 true 0x20#7) = false := by decide
theorem test_wellFormed_encRsvd20 : Instr.wellFormed (.valEncRsvd20 false 0x40#7) = false := by decide
theorem test_wellFormed_encRsvd40 : Instr.wellFormed (.valEncRsvd40 true 0x3F#7) = false := by decide
theorem test_wellFormed_decRsvd08_low : Instr.wellFormed (.valDecRsvd08 true 0x07#7) = false := by decide
theorem test_wellFormed_decRsvd08_high : Instr.wellFormed (.valDecRsvd08 true 0x10#7) = false := by decide
theorem test_wellFormed_decRsvd10 : Instr.wellFormed (.valDecRsvd10 false 0x0F#7) = false := by decide
theorem test_wellFormed_decRsvd20 : Instr.wellFormed (.valDecRsvd20 true 0x1F#7) = false := by decide
theorem test_wellFormed_decRsvd40 : Instr.wellFormed (.valDecRsvd40 false 0x00#7) = false := by decide

/-! ### Decoding: for every constructor a word written out from R92 and R103, `op` then `arg` -/

theorem test_decode_system : reads 0b00000000_00000000#16 .nop && reads 0b00000001_00000000#16 .rst := by decide
theorem test_decode_crc :
    reads 0b00010000_00000000#16 .crcClr && reads 0b00010001_10100101#16 (.crcUpd 0xA5#8) &&
    reads 0b00010010_01011010#16 (.crcCmp 0x5A#8) && reads 0b00010011_00000000#16 (.crcCalc .fb) &&
    reads 0b00010011_00000001#16 (.crcCalc .pb) && reads 0b00010100_00000000#16 (.crcCheck .fb) &&
    reads 0b00010100_00000001#16 (.crcCheck .pb) := by decide
theorem test_decode_frame :
    reads 0b00100000_00000000#16 .hdrPack && reads 0b00100001_00000000#16 .hdrUnpack &&
    reads 0b00100010_00000000#16 .datPack && reads 0b00100011_00000000#16 .datUnpack &&
    reads 0b00100100_00000000#16 .frmEnc && reads 0b00100101_00000000#16 .frmDec := by decide
theorem test_decode_valEnc :
    reads 0b00110000_00000000#16 (.valEncU8 false) && reads 0b00110000_10000001#16 (.valEncI8 true) &&
    reads 0b00110000_00000010#16 (.valEncU16 false) && reads 0b00110000_10000011#16 (.valEncI16 true) &&
    reads 0b00110000_00000100#16 (.valEncU32 false) && reads 0b00110000_10000101#16 (.valEncI32 true) &&
    reads 0b00110000_00000110#16 (.valEncF32 false) && reads 0b00110000_10000111#16 (.valEncF64 true) := by decide
theorem test_decode_valDec :
    reads 0b00110001_10000000#16 (.valDecU8 true) && reads 0b00110001_00000001#16 (.valDecI8 false) &&
    reads 0b00110001_10000010#16 (.valDecU16 true) && reads 0b00110001_00000011#16 (.valDecI16 false) &&
    reads 0b00110001_10000100#16 (.valDecU32 true) && reads 0b00110001_00000101#16 (.valDecI32 false) &&
    reads 0b00110001_10000110#16 (.valDecF32 true) && reads 0b00110001_00000111#16 (.valDecF64 false) := by decide
theorem test_decode_reserved_enc :
    reads 0b00110000_00001000#16 (.valEncRsvd08 false 0x08#7) &&
    reads 0b00110000_10001111#16 (.valEncRsvd08 true 0x0F#7) &&
    reads 0b00110000_00010000#16 (.valEncRsvd10 false 0x10#7) &&
    reads 0b00110000_10111111#16 (.valEncRsvd20 true 0x3F#7) &&
    reads 0b00110000_11111111#16 (.valEncRsvd40 true 0x7F#7) := by decide
theorem test_decode_reserved_dec :
    reads 0b00110001_10001000#16 (.valDecRsvd08 true 0x08#7) &&
    reads 0b00110001_00011111#16 (.valDecRsvd10 false 0x1F#7) &&
    reads 0b00110001_00100000#16 (.valDecRsvd20 false 0x20#7) &&
    reads 0b00110001_01000000#16 (.valDecRsvd40 false 0x40#7) := by decide
/-- The illegal words of 95_test_vectors.md: D-CRC-57, D-CRC-58, D-SYS-3 to 9, D-FRM-59, D-FRM-60. -/
theorem test_decode_illegal :
    rejects 0x1302#16 .selectNotZero && rejects 0x1480#16 .selectNotZero && rejects 0x1001#16 .argNotZero &&
    rejects 0x0001#16 .argNotZero && rejects 0x0101#16 .argNotZero && rejects 0x2401#16 .argNotZero &&
    rejects 0x0200#16 .undefinedOp && rejects 0xFFFF#16 .undefinedOp && rejects 0x1500#16 .undefinedOp &&
    rejects 0x3200#16 .undefinedOp && rejects 0x2600#16 .undefinedOp := by decide

/-! ### System commands -/

/-- D-SYS-1. -/
theorem test_nop : nextIs (exec .nop { State.reset with ERR := 0x02#8 }) State.reset := by decide
/-- D-SYS-2. -/
theorem test_rst :
    nextIs (exec .rst { State.reset with
      ACC := 0x7B#8, EQ := 1#1, WEN := 1#1, FLEN := 7#9, PLEN := 3#8, DPRES := 1#1, SERIAL := 0x007919#24,
      V := [(0, 0x5#64)], FB := bytes 0 frameS2a, PB := bytes 0 [0x01#8, 0x02#8, 0x03#8] }) State.reset := by decide

/-! ### CRC unit -/

/-- D-CRC-9 and S1. -/
theorem test_crc8 :
    crc8 [0x31#8, 0x32#8, 0x33#8, 0x34#8, 0x35#8, 0x36#8, 0x37#8, 0x38#8, 0x39#8] = 0xA1#8 ∧
      crc8 [0xFD#8, 0x15#8, 0xED#8, 0x09#8] = 0xF3#8 := by decide
/-- D-CRC-20, 21, 25, 26. -/
theorem test_check :
    check [] = false ∧ check [0x00#8] = true ∧ check [0xFD#8, 0x15#8, 0xED#8, 0x09#8, 0xF3#8] = true ∧
      check [0xFD#8, 0x15#8, 0xED#8, 0x09#8, 0xF4#8] = false := by decide
/-- D-CRC-30. -/
theorem test_crcClr :
    nextIs (exec .crcClr { State.reset with ACC := 0x7B#8, EQ := 1#1 }) { State.reset with EQ := 1#1 } := by decide
/-- D-CRC-32. -/
theorem test_crcUpd :
    nextIs (exec (.crcUpd 0x15#8) { State.reset with ACC := 0x89#8 }) { State.reset with ACC := 0xB2#8 } := by
  decide
/-- D-CRC-37. -/
theorem test_crcCmp_equal :
    nextIs (exec (.crcCmp 0xF3#8) { State.reset with ACC := 0xF3#8 })
      { State.reset with ACC := 0xF3#8, EQ := 1#1 } := by decide
/-- D-CRC-38: a mismatch clears `EQ` and is no error. -/
theorem test_crcCmp_differs :
    nextIs (exec (.crcCmp 0xF4#8) { State.reset with ACC := 0xF3#8, EQ := 1#1 })
      { State.reset with ACC := 0xF3#8 } := by decide
/-- D-CRC-42. -/
theorem test_crcCalc_fb :
    nextIs (exec (.crcCalc .fb) { frame frameS2a 7#9 with OFF := 3#9, CNT := 3#9, ACC := 0x55#8 })
      { frame frameS2a 7#9 with OFF := 3#9, CNT := 3#9, ACC := 0xC0#8 } := by decide
/-- D-CRC-49: beyond `PLEN` although inside `PB`. -/
theorem test_crcCalc_pb_range :
    nextIs (exec (.crcCalc .pb) { load [0x05#8] 2#8 with CNT := 3#9 })
      { load [0x05#8] 2#8 with CNT := 3#9, ERR := 0x0A#8 } := by decide
/-- D-CRC-56. -/
theorem test_crcCheck_pb :
    nextIs (exec (.crcCheck .pb) { load [0x05#8, 0x00#8, 0xFF#8] 3#8 with CNT := 3#9 })
      { load [0x05#8, 0x00#8, 0xFF#8] 3#8 with CNT := 3#9, EQ := 1#1, ACC := 0xFF#8 } := by decide
/-- D-CRC-52: the empty range. -/
theorem test_crcCheck_empty :
    nextIs (exec (.crcCheck .fb) { frame frameS2a 7#9 with EQ := 1#1, ACC := 0x55#8 }) (frame frameS2a 7#9) := by
  decide

/-! ### Frame unit -/

/-- D-FRM-3. -/
theorem test_hdrPack :
    nextIs (exec .hdrPack { State.reset with CMD := 0x0A#8, LEN := 0x03#8, SERIAL := 0x123456#24, FLEN := 200#9 })
      { frame [0x00#8, 0x0A#8, 0x03#8, 0x56#8, 0x34#8, 0x12#8, 0xA8#8] 7#9 with
        CMD := 0x0A#8, LEN := 0x03#8, SERIAL := 0x123456#24, HCRC := 0xA8#8 } := by decide
/-- D-FRM-9: the state byte is not validated. -/
theorem test_hdrUnpack :
    nextIs (exec .hdrUnpack (frame [0x55#8, 0x0A#8, 0x03#8, 0x56#8, 0x34#8, 0x12#8, 0x6D#8] 7#9))
      { frame [0x55#8, 0x0A#8, 0x03#8, 0x56#8, 0x34#8, 0x12#8, 0x6D#8] 7#9 with
        STATE := 0x55#8, CMD := 0x0A#8, LEN := 0x03#8, SERIAL := 0x123456#24, HCRC := 0x6D#8 } := by decide
/-- D-FRM-6. -/
theorem test_hdrUnpack_badCrc :
    nextIs (exec .hdrUnpack (frame [0xFD#8, 0x06#8, 0x00#8, 0x00#8, 0x00#8, 0xF0#8, 0xD1#8] 7#9))
      { frame [0xFD#8, 0x06#8, 0x00#8, 0x00#8, 0x00#8, 0xF0#8, 0xD1#8] 7#9 with ERR := 0x01#8 } := by decide
/-- D-FRM-11. -/
theorem test_datPack :
    nextIs (exec .datPack { load [0x05#8] 2#8 with DPRES := 1#1 })
      { load [0x05#8] 2#8 with
        DPRES := 1#1, DCRC := 0xFF#8, FLEN := 10#9, FB := bytes 7 [0x05#8, 0x00#8, 0xFF#8] } := by decide
/-- D-FRM-12: the empty payload has the data block 00, which overwrites the byte there. -/
theorem test_datPack_empty :
    nextIs (exec .datPack { State.reset with DPRES := 1#1, FB := bytes 7 [0xAA#8] })
      { State.reset with DPRES := 1#1, FLEN := 8#9 } := by decide
/-- D-FRM-17. -/
theorem test_datUnpack :
    nextIs (exec .datUnpack { State.reset with
        LEN := 0x03#8, FLEN := 10#9, FB := bytes 7 [0x05#8, 0x00#8, 0xFF#8] })
      { State.reset with
        LEN := 0x03#8, FLEN := 10#9, FB := bytes 7 [0x05#8, 0x00#8, 0xFF#8], DCRC := 0xFF#8, DPRES := 1#1,
        PLEN := 2#8, PB := bytes 0 [0x05#8] } := by decide
/-- D-FRM-18. -/
theorem test_datUnpack_badCrc :
    nextIs (exec .datUnpack { State.reset with
        LEN := 0x03#8, FLEN := 10#9, FB := bytes 7 [0x05#8, 0x00#8, 0xFE#8] })
      { State.reset with
        LEN := 0x03#8, FLEN := 10#9, FB := bytes 7 [0x05#8, 0x00#8, 0xFE#8], ERR := 0x02#8 } := by decide
/-- D-FRM-34. -/
theorem test_frmEnc :
    nextIs (exec .frmEnc { load [0x05#8] 2#8 with SERIAL := 0x007919#24, CMD := 0x0A#8, DPRES := 1#1 })
      { load [0x05#8] 2#8 with
        SERIAL := 0x007919#24, CMD := 0x0A#8, DPRES := 1#1, STATE := 0xFD#8, LEN := 0x03#8, HCRC := 0xCD#8,
        DCRC := 0xFF#8, FLEN := 10#9,
        FB := bytes 0 [0xFD#8, 0x0A#8, 0x03#8, 0x19#8, 0x79#8, 0x00#8, 0xCD#8, 0x05#8, 0x00#8, 0xFF#8] } := by decide
/-- D-FRM-37: the fault comes before any write. -/
theorem test_frmEnc_oversize :
    nextIs (exec .frmEnc { State.reset with PLEN := 253#8, DPRES := 1#1, STATE := 0x11#8 })
      { State.reset with PLEN := 253#8, DPRES := 1#1, STATE := 0x11#8, ERR := 0x03#8 } := by decide
/-- D-FRM-43. -/
theorem test_frmDec :
    nextIs (exec .frmDec (frame frame43 10#9))
      { frame frame43 10#9 with
        CMD := 0x0A#8, LEN := 0x03#8, SERIAL := 0x007919#24, HCRC := 0xF5#8, DCRC := 0xFF#8, DPRES := 1#1,
        PLEN := 2#8, PB := bytes 0 [0x05#8] } := by decide
/-- D-FRM-42: the frame of S2a with `OK_STATES` = {0x00}. -/
theorem test_frmDec_status :
    nextIs (exec .frmDec { frame frameS2a 7#9 with okStates := ⟨[]⟩ })
      { frame frameS2a 7#9 with okStates := ⟨[]⟩, ERR := 0x05#8, EINFO := 0xFD#8 } := by decide

/-! ### Value unit -/

/-- D-VAL-3 and D-VAL-2. -/
theorem test_valEncU8 :
    nextIs (exec (.valEncU8 true) (values [(0, 0x1#64), (1, 0x80#64), (2, 0xFF#64)] 3#8 3#8))
      { values [(0, 0x1#64), (1, 0x80#64), (2, 0xFF#64)] 3#8 3#8 with PB := bytes 0 [0x01#8, 0x80#8, 0xFF#8] } &&
    nextIs (exec (.valEncU8 false) (values [(0, 0x100#64)] 1#8 1#8))
      { values [(0, 0x100#64)] 1#8 1#8 with ERR := 0x09#8 } := by decide
/-- D-VAL-5 and D-VAL-7. -/
theorem test_valEncI8 :
    nextIs (exec (.valEncI8 false) (values [(0, 0xFFFFFFFFFFFFFF80#64)] 1#8 1#8))
      { values [(0, 0xFFFFFFFFFFFFFF80#64)] 1#8 1#8 with PB := bytes 0 [0x80#8] } &&
    nextIs (exec (.valEncI8 false) (values [(0, 0x80#64)] 1#8 1#8))
      { values [(0, 0x80#64)] 1#8 1#8 with ERR := 0x09#8 } := by decide
/-- D-VAL-38: the last two bytes of `PB`. -/
theorem test_valEncU16 :
    nextIs (exec (.valEncU16 false) { values [(0, 0x1234#64)] 2#8 1#8 with OFF := 250#9 })
      { values [(0, 0x1234#64)] 2#8 1#8 with OFF := 250#9, PB := bytes 250 [0x34#8, 0x12#8] } := by decide
/-- D-VAL-34: `NotWritable` before `ValueRange`. -/
theorem test_valEncU16_readOnly :
    nextIs (exec (.valEncU16 false) { values [(0, 0x10000#64)] 2#8 1#8 with WEN := 0#1 })
      { values [(0, 0x10000#64)] 2#8 1#8 with WEN := 0#1, ERR := 0x07#8 } := by decide
/-- D-VAL-15. -/
theorem test_valEncI16 :
    nextIs (exec (.valEncI16 true) (values [(0, 0xFFFFFFFFFFFFFFFE#64), (2, 0x12C#64)] 6#8 3#8))
      { values [(0, 0xFFFFFFFFFFFFFFFE#64), (2, 0x12C#64)] 6#8 3#8 with
        PB := bytes 0 [0xFE#8, 0xFF#8, 0x00#8, 0x00#8, 0x2C#8, 0x01#8] } := by decide
/-- D-VAL-45: an unaligned offset. -/
theorem test_valEncU32 :
    nextIs (exec (.valEncU32 true) { values [(0, 0x1#64), (1, 0x2#64)] 8#8 2#8 with OFF := 1#9 })
      { values [(0, 0x1#64), (1, 0x2#64)] 8#8 2#8 with
        OFF := 1#9, PB := bytes 1 [0x01#8, 0x00#8, 0x00#8, 0x00#8, 0x02#8] } := by decide
/-- D-VAL-23 and D-VAL-24. -/
theorem test_valEncI32 :
    nextIs (exec (.valEncI32 false) (values [(0, 0xFFFFFFFF80000000#64)] 4#8 1#8))
      { values [(0, 0xFFFFFFFF80000000#64)] 4#8 1#8 with PB := bytes 3 [0x80#8] } &&
    nextIs (exec (.valEncI32 false) (values [(0, 0x80000000#64)] 4#8 1#8))
      { values [(0, 0x80000000#64)] 4#8 1#8 with ERR := 0x09#8 } := by decide
/-- D-VAL-26 and D-VAL-28. -/
theorem test_valEncF32 :
    nextIs (exec (.valEncF32 false) (values [(0, 0x7FC00001#64)] 4#8 1#8))
      { values [(0, 0x7FC00001#64)] 4#8 1#8 with PB := bytes 0 [0x01#8, 0x00#8, 0xC0#8, 0x7F#8] } &&
    nextIs (exec (.valEncF32 false) (values [(0, 0x3FF0000000000000#64)] 4#8 1#8))
      { values [(0, 0x3FF0000000000000#64)] 4#8 1#8 with ERR := 0x09#8 } := by decide
/-- D-VAL-29 and D-VAL-31. -/
theorem test_valEncF64 :
    nextIs (exec (.valEncF64 false) (values [(0, 0x3FF0000000000000#64)] 8#8 1#8))
      { values [(0, 0x3FF0000000000000#64)] 8#8 1#8 with PB := bytes 6 [0xF0#8, 0x3F#8] } &&
    nextIs (exec (.valEncF64 false) (values [] 4#8 1#8)) { values [] 4#8 1#8 with ERR := 0x06#8 } := by decide
/-- D-VAL-60 and D-VAL-85. -/
theorem test_valDecU8 :
    nextIs (exec (.valDecU8 true) (wire [0x01#8, 0x80#8, 0xFF#8] 3#8))
      { wire [0x01#8, 0x80#8, 0xFF#8] 3#8 with VCNT := 3#8, V := [(0, 0x1#64), (1, 0x80#64), (2, 0xFF#64)] } &&
    nextIs (exec (.valDecU8 false) { State.reset with BLEN := 1#8, PLEN := 253#8 })
      { State.reset with BLEN := 1#8, PLEN := 253#8, ERR := 0x0A#8 } := by decide
/-- D-VAL-63. -/
theorem test_valDecI8 :
    nextIs (exec (.valDecI8 false) (wire [0x80#8] 1#8))
      { wire [0x80#8] 1#8 with VCNT := 1#8, V := [(0, 0xFFFFFFFFFFFFFF80#64)] } := by decide
/-- D-VAL-66 and D-VAL-82. -/
theorem test_valDecU16 :
    nextIs (exec (.valDecU16 false) (wire [0x00#8, 0x80#8] 2#8))
      { wire [0x00#8, 0x80#8] 2#8 with VCNT := 1#8, V := [(0, 0x8000#64)] } &&
    nextIs (exec (.valDecU16 false) (wire [0x01#8, 0x00#8, 0x02#8, 0x00#8] 4#8))
      { wire [0x01#8, 0x00#8, 0x02#8, 0x00#8] 4#8 with ERR := 0x06#8 } := by decide
/-- D-VAL-87: the old `V[0]` is overwritten whole, `V[1]` stays. -/
theorem test_valDecI16 :
    nextIs (exec (.valDecI16 false) { wire [0xFF#8, 0xFF#8] 2#8 with V := [(0, 0x1234567890#64), (1, 0x77#64)] })
      { wire [0xFF#8, 0xFF#8] 2#8 with VCNT := 1#8, V := [(0, 0xFFFFFFFFFFFFFFFF#64), (1, 0x77#64)] } := by decide
/-- D-VAL-71. -/
theorem test_valDecU32 :
    nextIs (exec (.valDecU32 false) (wire [0xFF#8, 0xFF#8, 0xFF#8, 0xFF#8] 4#8))
      { wire [0xFF#8, 0xFF#8, 0xFF#8, 0xFF#8] 4#8 with VCNT := 1#8, V := [(0, 0xFFFFFFFF#64)] } := by decide
/-- D-VAL-73. -/
theorem test_valDecI32 :
    nextIs (exec (.valDecI32 false) (wire [0x18#8, 0xFC#8, 0xFF#8, 0xFF#8] 4#8))
      { wire [0x18#8, 0xFC#8, 0xFF#8, 0xFF#8] 4#8 with VCNT := 1#8, V := [(0, 0xFFFFFFFFFFFFFC18#64)] } := by decide
/-- D-VAL-75. -/
theorem test_valDecF32 :
    nextIs (exec (.valDecF32 false) { load [0x07#8, 0x00#8, 0x00#8, 0x80#8, 0x3F#8] 5#8 with BLEN := 4#8, OFF := 1#9 })
      { load [0x07#8, 0x00#8, 0x00#8, 0x80#8, 0x3F#8] 5#8 with
        BLEN := 4#8, OFF := 1#9, VCNT := 1#8, V := [(0, 0x3F800000#64)] } := by decide
/-- D-VAL-77. -/
theorem test_valDecF64 :
    nextIs (exec (.valDecF64 false) (wire [0x00#8, 0x00#8, 0x00#8, 0x00#8, 0x00#8, 0x00#8, 0xF0#8, 0x3F#8] 8#8))
      { wire [0x00#8, 0x00#8, 0x00#8, 0x00#8, 0x00#8, 0x00#8, 0xF0#8, 0x3F#8] 8#8 with
        VCNT := 1#8, V := [(0, 0x3FF0000000000000#64)] } := by decide
/-- D-VAL-43, D-VAL-44, D-VAL-83 and R228 for the other rows. -/
theorem test_reserved :
    ([.valEncRsvd08 false 0x08#7, .valEncRsvd10 false 0x10#7, .valEncRsvd20 true 0x20#7, .valEncRsvd40 true 0x7F#7,
      .valDecRsvd08 false 0x08#7, .valDecRsvd10 true 0x1F#7, .valDecRsvd20 false 0x3F#7,
      .valDecRsvd40 true 0x40#7] : List Instr).all
      (fun i => nextIs (exec i { State.reset with BLEN := 1#8, VCNT := 5#8 })
        { State.reset with BLEN := 1#8, VCNT := 5#8, ERR := 0x08#8 }) = true := by decide

/-! ### Steps and host accesses -/

/-- Lines 1 and 4 of program P1: a register write, and a command issue through `withFetchWord` (D-FRM-30). -/
theorem test_step_frmEnc :
    nextIs (step (State.withFetchWord { State.reset with SERIAL := 0x007919#24, CMD := 0x02#8 } 16 0x2400))
      { frame frameS2a 7#9 with SERIAL := 0x007919#24, CMD := 0x02#8, STATE := 0xFD#8, HCRC := 0x7B#8 } := by decide
/-- D-SYS-7: `EINFO` is the operation code. -/
theorem test_step_illegal :
    nextIs (step (State.withFetchWord State.reset 16 0x1500))
      { State.reset with ERR := 0x0B#8, EINFO := 0x15#8 } := by decide
/-- D-FRM-38: a register keeps the low bits of its width (R36). -/
theorem test_step_writeSerial :
    nextIs (step { State.reset with pending := [.write .reg 0x08 0x1FFFFFF#64] })
      { State.reset with SERIAL := 0xFFFFFF#24 } := by decide
/-- R34 and R255. -/
theorem test_step_readTable :
    nextIs (step { State.reset with pending := [.read .tbl 0xFF] }) { State.reset with returned := [0x35#64] } := by
  decide
theorem test_table_word_decodes : decodeTableWord 16 0x11FD = some (.crcUpd 0xFD#8) := by decide

/-! ### Witnesses: for every statement that has hypotheses or branches, states and operands that meet them, with
a boundary value for each branch -/

/-- A state whose next access is `a`. -/
def next (a : Access) : State := { State.reset with pending := [a] }

/-- The 252-byte zero payload with its CRC 0x00 behind a good header of `LEN` = 253 (D-FRM-58's header). -/
def frameMax : State :=
  { frame [0x00#8, 0x0A#8, 0xFD#8, 0x19#8, 0x79#8, 0x00#8, 0x91#8] 260#9 with LEN := 0xFD#8 }

/-- D-FRM-55: `LEN` = 254, 253 zero payload bytes and CRC 0x00. -/
def frameOversize : State :=
  { frame [0x00#8, 0x0A#8, 0xFE#8, 0x19#8, 0x79#8, 0x00#8, 0x19#8] 261#9 with LEN := 0xFE#8 }

/-- D-FRM-54: `LEN` = 1, a data block of one wrong byte. -/
def frameBadData : State :=
  { frame [0x00#8, 0x0A#8, 0x01#8, 0x19#8, 0x79#8, 0x00#8, 0xF2#8, 0x01#8] 8#9 with LEN := 0x01#8 }

theorem witness_DecodeReadsBackEveryEncodedInstr :
    ([.nop, .crcUpd 0xFF#8, .crcCheck .pb, .frmDec, .valEncF64 true, .valDecU8 false, .valEncRsvd08 false 0x08#7,
      .valEncRsvd08 true 0x0F#7, .valEncRsvd10 false 0x10#7, .valEncRsvd10 true 0x1F#7, .valEncRsvd20 false 0x20#7,
      .valEncRsvd20 true 0x3F#7, .valEncRsvd40 false 0x40#7, .valEncRsvd40 true 0x7F#7, .valDecRsvd08 false 0x08#7,
      .valDecRsvd10 true 0x1F#7, .valDecRsvd20 false 0x20#7, .valDecRsvd40 true 0x7F#7] : List Instr).all
      Instr.wellFormed = true := by decide
theorem witness_EncodeGivesBackEveryDecodedWord : decode 0x0000#16 = .ok .nop ∧
    decode 0x31FF#16 = .ok (.valDecRsvd40 true 0x7F#7) := ⟨rfl, rfl⟩
theorem witness_DecodingFollowsTheOneMatchingRow :
    (rowTable[0]? = some (0x0000#16, 0xFFFF#16) ∧ 0x0000#16 &&& 0xFFFF#16 = 0x0000#16) ∧
    (rowTable[36]? = some (0x3140#16, 0xFF40#16) ∧ 0x31FF#16 &&& 0xFF40#16 = 0x3140#16) ∧
    (∀ r ∈ rowTable, 0x1302#16 &&& r.2 ≠ r.1) := by simp [rowTable]
theorem witness_LegalWordsAreExactlyTheListed : legalWord 0x1401#16 ∧ ¬ legalWord 0x1402#16 := by
  unfold legalWord; decide
theorem witness_StepRunsTheDecodedCommand :
    (next (.write .reg 0x00 0xFFFF000000002500#64)).pending = .write .reg 0x00 0xFFFF000000002500#64 :: [] ∧
    decode ((0xFFFF000000002500#64 : Word).setWidth 16) = .ok .frmDec := ⟨rfl, rfl⟩
theorem witness_WordOfNoRowRaisesIllegalOp :
    (next (.write .reg 0x00 0x1302#64)).pending = .write .reg 0x00 0x1302#64 :: [] ∧
    ∀ r ∈ rowTable, (0x1302#64 : Word).setWidth 16 &&& r.2 ≠ r.1 := by simp [next, rowTable]
theorem witness_HostReadOfARegisterReturnsItsValue :
    (next (.read .reg 0x12)).pending = .read .reg 0x12 :: [] ∧
    (next (.read .reg 0x13)).pending = .read .reg 0x13 :: [] := by decide
theorem witness_HostWriteOfARegisterChangesItAlone :
    ((0x05, 8) ∈ writable ∧ (0x12, 8) ∈ writable ∧
      (next (.write .reg 0x12 0x100#64)).pending = .write .reg 0x12 0x100#64 :: []) ∧
    ((next (.write .reg 0x00 0x0100#64)).pending = .write .reg 0x00 0x0100#64 :: [] ∧
      decode ((0x0100#64 : Word).setWidth 16) = .ok .rst) := ⟨by decide, rfl, rfl⟩
theorem witness_HostAccessOfASpaceReachesOneUnit :
    (261 < 262 ∧ (next (.read .fb 261)).pending = .read .fb 261 :: []) ∧
    (251 < 252 ∧ (next (.read .pb 251)).pending = .read .pb 251 :: []) ∧
    (251 < 252 ∧ (next (.read .v 251)).pending = .read .v 251 :: []) ∧
    (255 < 256 ∧ (next (.read .tbl 255)).pending = .read .tbl 255 :: []) ∧
    (261 < 262 ∧ (next (.write .fb 261 0x1FF#64)).pending = .write .fb 261 0x1FF#64 :: []) ∧
    (251 < 252 ∧ (next (.write .pb 251 0x100#64)).pending = .write .pb 251 0x100#64 :: []) ∧
    (251 < 252 ∧ (next (.write .v 251 0x0#64)).pending = .write .v 251 0x0#64 :: []) := by decide +kernel
theorem witness_ReadOnlyAndOutsideAccessesChangeNothing :
    ((next (.write .reg 0x0A 1#64)).pending = .write .reg 0x0A 1#64 :: [] ∧
      (0x0A ∈ [0x01, 0x02, 0x03, 0x04, 0x09, 0x0A] ∨ 0x12 < 0x0A)) ∧
    ((next (.write .reg 0x13 1#64)).pending = .write .reg 0x13 1#64 :: [] ∧ 0x12 < 0x13) ∧
    ((next (.write .fb 262 1#64)).pending = .write .fb 262 1#64 :: [] ∧ 261 < 262) ∧
    ((next (.write .pb 252 1#64)).pending = .write .pb 252 1#64 :: [] ∧ 251 < 252) ∧
    ((next (.write .v 252 1#64)).pending = .write .v 252 1#64 :: [] ∧ 251 < 252) ∧
    (next (.write .tbl 0 1#64)).pending = .write .tbl 0 1#64 :: [] ∧
    ((next (.read .reg 0x13)).pending = .read .reg 0x13 :: [] ∧ 0x12 < 0x13) ∧
    ((next (.read .fb 262)).pending = .read .fb 262 :: [] ∧ 261 < 262) ∧
    ((next (.read .pb 252)).pending = .read .pb 252 :: [] ∧ 251 < 252) ∧
    ((next (.read .v 252)).pending = .read .v 252 :: [] ∧ 251 < 252) ∧
    ((next (.read .tbl 256)).pending = .read .tbl 256 :: [] ∧ 255 < 256) := by decide +kernel
theorem witness_HardwareResetZeroesTheBlock : (next .hwReset).pending = .hwReset :: [] := by decide
theorem witness_NopOnlyClearsTheReport :
    decode 0x0000#16 = .ok .nop ∧ ∀ s : State, exec .nop s = exec .nop s := ⟨rfl, fun _ => rfl⟩
theorem witness_ChecksumLaws : (0x00#8 : Byte) ≠ 0x01#8 := by decide
/-- The range clause and the success clause of both buffers, at `OFF` = `FLEN` and at the sizes. -/
theorem witness_CrcCalcIsTheChecksumOfTheRange :
    (262 < (263#9 : BitVec 9).toNat) ∧ (¬ 262 < (262#9 : BitVec 9).toNat ∧ ¬ (262#9 : BitVec 9).toNat < 262 + 0) ∧
    ((7#9 : BitVec 9).toNat < 7 + 1) ∧ (252 < (253#8 : BitVec 8).toNat) ∧
    (¬ 252 < (252#8 : BitVec 8).toNat ∧ ¬ (252#8 : BitVec 8).toNat < 251 + 1) := by decide +kernel
/-- D-CRC-55 (range), D-CRC-52 (empty), D-CRC-50 and D-CRC-51 (both values of `EQ`), D-CRC-48 (`PB`). -/
theorem witness_CrcCheckComparesTheTrailingByte :
    (¬ 262 < (7#9 : BitVec 9).toNat ∧ (7#9 : BitVec 9).toNat < 0 + 8) ∧
    (¬ (7#9 : BitVec 9).toNat < 7 + (0#9 : BitVec 9).toNat) ∧
    crcFollows (bytes 0 frameS2a) 0 (7 - 1) ∧
    ¬ crcFollows (bytes 0 [0xFD#8, 0x02#8, 0x00#8, 0x19#8, 0x79#8, 0x00#8, 0x7A#8]) 0 (7 - 1) ∧
    252 < (253#8 : BitVec 8).toNat := by decide +kernel
theorem witness_StreamedChecksumThroughTheCommandPort :
    ({ State.reset with
        pending := [.write .reg 0x00 0x1000#64, .write .reg 0x00 0x11FF#64, .write .reg 0x00 0x1235#64] }).pending =
      .write .reg 0x00 0x1000#64 :: [0xFF#8].map (fun b => .write .reg 0x00 (0x1100#64 + b.setWidth 64)) ++
        .write .reg 0x00 (0x1200#64 + (0x35#8 : Byte).setWidth 64) :: [] := by decide
/-- D-FRM-8, D-FRM-7, D-FRM-6, and success at `FLEN` = 262 with the header of D-FRM-57. -/
theorem witness_HdrUnpackSplitsACheckedHeader :
    262 < (frame [] 263#9).FLEN.toNat ∧ (frame frameS2a 6#9).FLEN.toNat < 7 ∧
    (¬ 262 < (frame [0x01#8] 7#9).FLEN.toNat ∧ ¬ (frame [0x01#8] 7#9).FLEN.toNat < 7 ∧
      ¬ crcFollows (frame [0x01#8] 7#9).FB 0 6) ∧
    (¬ 262 < (frame frameS2a 262#9).FLEN.toNat ∧ crcFollows (frame frameS2a 262#9).FB 0 6) := by decide +kernel
theorem witness_DatPackAppendsTheDataBlock :
    (load [] 253#8).DPRES = 0#1 ∧
    (({ load [] 253#8 with DPRES := 1#1 }).DPRES ≠ 0#1 ∧ 252 < (load [] 253#8).PLEN.toNat) ∧
    (({ load [] 252#8 with DPRES := 1#1 }).DPRES ≠ 0#1 ∧ ¬ 252 < (load [] 252#8).PLEN.toNat) := by decide +kernel
set_option maxRecDepth 20000 in
/-- D-FRM-28, D-FRM-19, D-FRM-21, D-FRM-23, D-FRM-24 and D-FRM-27. -/
theorem witness_DatUnpackExtractsACheckedBlock :
    262 < (frame [] 300#9).FLEN.toNat ∧
    (¬ 262 < (frame [] 9#9).FLEN.toNat ∧ (frame [] 9#9).FLEN.toNat ≠ 7 + (frame [] 9#9).LEN.toNat) ∧
    ((frame [] 7#9).FLEN.toNat = 7 + (frame [] 7#9).LEN.toNat ∧ (frame [] 7#9).LEN.toNat = 0) ∧
    (frameBadData.FLEN.toNat = 7 + frameBadData.LEN.toNat ∧ frameBadData.LEN.toNat ≠ 0 ∧
      ¬ crcFollows frameBadData.FB 7 (frameBadData.LEN.toNat - 1)) ∧
    (frameOversize.FLEN.toNat = 7 + frameOversize.LEN.toNat ∧
      crcFollows frameOversize.FB 7 (frameOversize.LEN.toNat - 1) ∧ 252 < frameOversize.LEN.toNat - 1) ∧
    (frameMax.FLEN.toNat = 7 + frameMax.LEN.toNat ∧ crcFollows frameMax.FB 7 (frameMax.LEN.toNat - 1) ∧
      ¬ 252 < frameMax.LEN.toNat - 1) := by decide +kernel
theorem witness_FrmEncBuildsTheRequestFrame :
    (({ load [] 253#8 with DPRES := 1#1 }).DPRES = 1#1 ∧ 252 < (load [] 253#8).PLEN.toNat) ∧
    ¬ (({ load [] 252#8 with DPRES := 1#1 }).DPRES = 1#1 ∧ 252 < (load [] 252#8).PLEN.toNat) ∧
    ¬ ((load [] 253#8).DPRES = 1#1 ∧ 252 < (load [] 253#8).PLEN.toNat) := by decide +kernel
set_option maxRecDepth 20000 in
/-- One state for each of the seven faults of R173 in order (D-FRM-52, 51, 47, 46, 49, 54, 55) and the two
successes (D-FRM-40's form and the largest frame). -/
theorem witness_FrmDecValidatesThenSplitsTheFrame :
    262 < (frame [] 263#9).FLEN.toNat ∧
    (frame [] 6#9).FLEN.toNat < 7 ∧
    ¬ crcFollows (frame [0x01#8] 7#9).FB 0 6 ∧
    (crcFollows (frame [0x55#8, 0x0A#8, 0x03#8, 0x19#8, 0x79#8, 0x00#8, 0x30#8] 7#9).FB 0 6 ∧
      ¬ accepted State.reset 0x55#8) ∧
    (crcFollows (frame frame43 11#9).FB 0 6 ∧ accepted State.reset 0x00#8 ∧ 11 ≠ 7 + 3 ∧
      (Memory.read (frame frame43 11#9).FB 2).toNat = 3) ∧
    (crcFollows frameBadData.FB 0 6 ∧ frameBadData.FLEN.toNat = 7 + 1 ∧ ¬ crcFollows frameBadData.FB 7 (1 - 1)) ∧
    (crcFollows frameOversize.FB 0 6 ∧ frameOversize.FLEN.toNat = 7 + 254 ∧
      crcFollows frameOversize.FB 7 (254 - 1) ∧ 252 < 254 - 1) ∧
    (crcFollows (frame frameS2a 7#9).FB 0 6 ∧ accepted State.reset 0xFD#8 ∧
      (Memory.read (frame frameS2a 7#9).FB 2).toNat = 0) ∧
    (crcFollows frameMax.FB 0 6 ∧ frameMax.FLEN.toNat = 7 + 253 ∧ (Memory.read frameMax.FB 2).toNat = 253 ∧
      crcFollows frameMax.FB 7 (253 - 1) ∧ ¬ 252 < 253 - 1) := by decide +kernel
/-- Both sides of the equivalence, `FLEN` at its two bounds. -/
theorem witness_DeviceStatusReportsTheStateByte :
    (7 ≤ (7#9 : BitVec 9).toNat ∧ (262#9 : BitVec 9).toNat ≤ 262 ∧ crcFollows (bytes 0 frameS2a) 0 6 ∧
      ¬ accepted { State.reset with okStates := ⟨[]⟩ } 0xFD#8) ∧ accepted State.reset 0xFD#8 := by decide +kernel
theorem witness_EncodedFrameDecodesBack :
    (({ load [0x05#8] 252#8 with DPRES := 1#1 }).DPRES = 1#1 →
      ({ load [0x05#8] 252#8 with DPRES := 1#1 }).PLEN.toNat ≤ 252) ∧
    ((load [] 255#8).DPRES = 1#1 → (load [] 255#8).PLEN.toNat ≤ 252) ∧
    accepted State.reset 0xFD#8 ∧ ¬ accepted { State.reset with okStates := ⟨[0x01#8]⟩ } 0xFD#8 := by decide
theorem witness_WholeFrameCommandsAreTheirHalves :
    (∃ t, exec .frmDec (frame frame43 10#9) = .next t ∧ t.ERR = 0x00#8) ∧
    (({ load [] 252#8 with DPRES := 1#1 }).DPRES = 1#1 →
      ({ load [] 252#8 with DPRES := 1#1 }).PLEN.toNat ≤ 252) := ⟨⟨_, rfl, by decide⟩, by decide⟩
theorem witness_CanonicalContainersAreTheTabulatedRanges :
    fits 0xFF#64 .u8 ∧ ¬ fits 0x100#64 .u8 ∧ fits 0xFFFFFFFFFFFFFF80#64 .i8 ∧ ¬ fits 0x80#64 .i8 ∧
    fits 0xFFFFFFFF80000000#64 .i32 ∧ ¬ fits 0x80000000#64 .i32 := by unfold fits; decide
theorem witness_ScalarCodecInverseLaws :
    fits 0xFFFFFFFFFFFF8000#64 .i16 ∧ [0x00#8, 0x80#8].length = wireSize .i16 := by unfold fits wireSize; decide
/-- `LengthMismatch` (D-VAL-12, D-VAL-36), `NotWritable` (D-VAL-33), `ValueRange` (D-VAL-11), `BufRange`
(D-VAL-37), and success on a full buffer (D-VAL-42), on none (D-VAL-40), on one element. -/
theorem witness_ValEncWritesTheElementBytes :
    (¬ ∃ n, counts .u16 false 3 n ∧ 1 = n) ∧ (¬ ∃ n, counts .u16 false 2 n ∧ 0 = n) ∧
    (counts .u16 false 2 1 ∧ (0#1 : BitVec 1) = 0#1) ∧ (counts .u16 false 2 1 ∧ ¬ fits 0x10000#64 .u16) ∧
    (counts .u16 false 2 1 ∧ fits 0x1234#64 .u16 ∧ 252 < (251#9 : BitVec 9).toNat + 2) ∧
    (counts .u8 true 252 252 ∧ (0#9 : BitVec 9).toNat + (252#8 : BitVec 8).toNat ≤ 252) ∧
    (counts .f64 true 0 0 ∧ (252#9 : BitVec 9).toNat + 0 ≤ 252) ∧
    (counts .f64 false 8 1 ∧ fits 0xFFFFFFFFFFFFFFFF#64 .f64) := by
  refine ⟨?_, ?_, ?_, ?_, ?_, ?_, ?_, ?_⟩ <;> simp [counts, wireSize, fits]
/-- `LengthMismatch` (D-VAL-81, D-VAL-82), `BufRange` (D-VAL-85, D-VAL-80), and success up to `PLEN` = 252. -/
theorem witness_ValDecReadsTheElementBytes :
    (¬ ∃ n, counts .u16 true 3 n) ∧ (¬ ∃ n, counts .u16 false 4 n) ∧
    (counts .u8 false 1 1 ∧ 252 < (253#8 : BitVec 8).toNat) ∧
    (counts .u16 false 2 1 ∧ (2#8 : BitVec 8).toNat < 1 + 2) ∧
    (counts .f32 true 252 63 ∧ (252#8 : BitVec 8).toNat ≤ 252 ∧ 0 + 252 ≤ (252#8 : BitVec 8).toNat) ∧
    (counts .u8 true 0 0 ∧ (0#8 : BitVec 8).toNat ≤ 252 ∧ 0 + 0 ≤ (0#8 : BitVec 8).toNat) := by
  refine ⟨?_, ?_, ?_, ?_, ?_, ?_⟩ <;> (simp [counts, wireSize]; try omega)
theorem witness_EncodedValuesDecodeBack :
    (∃ u, exec (encOf false .u16) { values [(0, 0x1234#64)] 2#8 1#8 with OFF := 250#9 } = .next u ∧
      u.ERR = 0x00#8) ∧ (250#9 : BitVec 9).toNat + (2#8 : BitVec 8).toNat ≤ (252#8 : BitVec 8).toNat ∧
    (252#8 : BitVec 8).toNat ≤ 252 := ⟨⟨_, rfl, by decide⟩, by decide⟩
theorem witness_ReservedTagsRaiseBadTypeTag :
    ((0x3008#16 : CmdWord).extractLsb' 8 8 = 0x30#8 ∧ 8 ≤ ((0x3008#16 : CmdWord).extractLsb' 0 7).toNat) ∧
    ((0x31FF#16 : CmdWord).extractLsb' 8 8 = 0x31#8 ∧ 8 ≤ ((0x31FF#16 : CmdWord).extractLsb' 0 7).toNat) := by
  decide
/-- A command that faults and one that does not (D-FRM-51, D-SYS-1), and an illegal word (D-SYS-6). -/
theorem witness_AFaultingCommandWritesOnlyTheReport :
    (∃ t, (∃ i, exec i State.reset = .next t) ∧ t.ERR ≠ 0x00#8) ∧
    (∃ t, (∃ i, exec i State.reset = .next t) ∧ t.ERR = 0x00#8) ∧
    (∃ t, (∃ w, runWord w State.reset = .next t) ∧ t.ERR ≠ 0x00#8) :=
  ⟨⟨_, ⟨.frmDec, rfl⟩, by decide⟩, ⟨_, ⟨.nop, rfl⟩, by decide⟩, ⟨_, ⟨0xFFFF#16, rfl⟩, by decide⟩⟩
/-- A fault without detail, and `DeviceStatus`, the one with it. -/
theorem witness_CommandsReportOnlyTheirListedErrors :
    (∃ t, exec .hdrUnpack State.reset = .next t ∧ t.ERR ≠ 0x05#8) ∧
    (∃ t, exec .frmDec { frame frameS2a 7#9 with okStates := ⟨[]⟩ } = .next t ∧ t.ERR = 0x05#8) :=
  ⟨⟨_, rfl, by decide⟩, ⟨_, rfl, by decide⟩⟩
theorem witness_CommandsWriteOnlyListedRegistersAndSpaces :
    (∃ t, exec .hdrPack State.reset = .next t) ∧ 0x04 ∉ mayWrite .hdrPack ∧ mayWriteV .hdrPack = false ∧
    mayWritePB .hdrPack = false ∧ mayWriteFB .frmDec = false := ⟨⟨_, rfl⟩, by decide⟩
theorem witness_BytesBeyondTheLengthsAreNeverRead :
    (∀ k, k < (frame frame43 10#9).FLEN.toNat →
      Memory.read (bytes 0 (frame43 ++ [0xAA#8])) k = Memory.read (frame frame43 10#9).FB k) ∧
    (∀ k, k < (frame frame43 10#9).PLEN.toNat →
      Memory.read (bytes 0 [0xAA#8]) k = Memory.read (frame frame43 10#9).PB k) ∧
    ∃ t, exec .frmDec (frame frame43 10#9) = .next t := ⟨by decide, by decide, _, rfl⟩
/-- A state with something in every space that meets the invariant and steps. -/
theorem witness_EveryStepKeepsTheInvariant :
    State.Inv { next (.write .reg 0x00 0x2500#64) with FB := bytes 0 frameS2a, FLEN := 7#9, V := [(251, 1#64)] } ∧
    ∃ t, step { next (.write .reg 0x00 0x2500#64) with FB := bytes 0 frameS2a, FLEN := 7#9, V := [(251, 1#64)] } =
      .next t := by
  refine ⟨?_, _, rfl⟩
  unfold State.Inv; decide

end Sys2Proof.Tests
end

section
/-! Facts about commands that several statements share: the commands by meaning, what a command that succeeds writes,
and every way a command can end. -/

namespace Sys2Proof.Machine

open Sys2Proof.Statement

/-! ### The commands by meaning -/

/-- The commands with a reserved type tag (R228). -/
inductive ReservedTag : Instr → Prop
  | enc08 (arr : Bool) (t : BitVec 7) : ReservedTag (.valEncRsvd08 arr t)
  | enc10 (arr : Bool) (t : BitVec 7) : ReservedTag (.valEncRsvd10 arr t)
  | enc20 (arr : Bool) (t : BitVec 7) : ReservedTag (.valEncRsvd20 arr t)
  | enc40 (arr : Bool) (t : BitVec 7) : ReservedTag (.valEncRsvd40 arr t)
  | dec08 (arr : Bool) (t : BitVec 7) : ReservedTag (.valDecRsvd08 arr t)
  | dec10 (arr : Bool) (t : BitVec 7) : ReservedTag (.valDecRsvd10 arr t)
  | dec20 (arr : Bool) (t : BitVec 7) : ReservedTag (.valDecRsvd20 arr t)
  | dec40 (arr : Bool) (t : BitVec 7) : ReservedTag (.valDecRsvd40 arr t)

/-- Case analysis over the commands with the eight types of `VAL.ENC` and of `VAL.DEC` in one case each, and the
eight reserved-tag rows in one. -/
theorem Instr.byMeaning {P : Instr → Prop} (nop : P .nop) (rst : P .rst) (crcClr : P .crcClr)
    (crcUpd : ∀ b, P (.crcUpd b)) (crcCmp : ∀ b, P (.crcCmp b)) (crcCalc : ∀ b, P (.crcCalc b))
    (crcCheck : ∀ b, P (.crcCheck b)) (hdrPack : P .hdrPack) (hdrUnpack : P .hdrUnpack) (datPack : P .datPack)
    (datUnpack : P .datUnpack) (frmEnc : P .frmEnc) (frmDec : P .frmDec) (valEnc : ∀ t arr, P (encOf arr t))
    (valDec : ∀ t arr, P (decOf arr t)) (reserved : ∀ i, ReservedTag i → P i) : ∀ i, P i
  | .nop => nop
  | .rst => rst
  | .crcClr => crcClr
  | .crcUpd b => crcUpd b
  | .crcCmp b => crcCmp b
  | .crcCalc b => crcCalc b
  | .crcCheck b => crcCheck b
  | .hdrPack => hdrPack
  | .hdrUnpack => hdrUnpack
  | .datPack => datPack
  | .datUnpack => datUnpack
  | .frmEnc => frmEnc
  | .frmDec => frmDec
  | .valEncU8 arr => valEnc .u8 arr
  | .valEncI8 arr => valEnc .i8 arr
  | .valEncU16 arr => valEnc .u16 arr
  | .valEncI16 arr => valEnc .i16 arr
  | .valEncU32 arr => valEnc .u32 arr
  | .valEncI32 arr => valEnc .i32 arr
  | .valEncF32 arr => valEnc .f32 arr
  | .valEncF64 arr => valEnc .f64 arr
  | .valDecU8 arr => valDec .u8 arr
  | .valDecI8 arr => valDec .i8 arr
  | .valDecU16 arr => valDec .u16 arr
  | .valDecI16 arr => valDec .i16 arr
  | .valDecU32 arr => valDec .u32 arr
  | .valDecI32 arr => valDec .i32 arr
  | .valDecF32 arr => valDec .f32 arr
  | .valDecF64 arr => valDec .f64 arr
  | .valEncRsvd08 arr t => reserved _ (.enc08 arr t)
  | .valEncRsvd10 arr t => reserved _ (.enc10 arr t)
  | .valEncRsvd20 arr t => reserved _ (.enc20 arr t)
  | .valEncRsvd40 arr t => reserved _ (.enc40 arr t)
  | .valDecRsvd08 arr t => reserved _ (.dec08 arr t)
  | .valDecRsvd10 arr t => reserved _ (.dec10 arr t)
  | .valDecRsvd20 arr t => reserved _ (.dec20 arr t)
  | .valDecRsvd40 arr t => reserved _ (.dec40 arr t)

theorem exec_encOf (t : ScalarType) (arr : Bool) (s : State) : exec (encOf arr t) s = valEnc t arr s := by
  cases t <;> rfl

theorem exec_decOf (t : ScalarType) (arr : Bool) (s : State) : exec (decOf arr t) s = valDec t arr s := by
  cases t <;> rfl

theorem exec_reserved {i : Instr} (h : ReservedTag i) (s : State) : exec i s = valReserved s := by
  cases h <;> rfl

/-! ### Every way a command can end -/

/-- `w` is `s` with the writes made that the command makes when it succeeds, and the checks that led there hold. -/
inductive Writes (s : State) : Instr → State → Prop
  | nop : Writes s .nop s
  | rst : Writes s .rst (State.clear s)
  | crcClr : Writes s .crcClr { s with ACC := Config.CRC_INIT }
  | crcUpd (b : Byte) : Writes s (.crcUpd b) { s with ACC := crcStep s.ACC b }
  | crcCmp (b : Byte) : Writes s (.crcCmp b) { s with EQ := cmpFlag s.ACC b }
  | crcCalc (b : Buf) (inside : rangeOutside b s = false) :
      Writes s (.crcCalc b) { s with ACC := crc8 (rangeBytes b s) }
  | crcCheck (b : Buf) (inside : rangeOutside b s = false) :
      Writes s (.crcCheck b) { s with ACC := (checkFlag (rangeBytes b s)).1, EQ := (checkFlag (rangeBytes b s)).2 }
  | hdrPack : Writes s .hdrPack (packHeader s)
  | hdrUnpack {h : List Byte} (hh : h = Memory.readBlock s.FB 0 7) (large : s.FLEN.toNat ≤ 262)
      (full : 7 ≤ s.FLEN.toNat) (valid : check h = true) :
      Writes s .hdrUnpack (unpackHeader (h.getD 0 0#8) (h.getD 1 0#8) (h.getD 2 0#8)
        (BitVec.ofNat 24 (fromLe (sub h 3 5))) (h.getD 6 0#8) s)
  | datPack (short : payloadTooLong s = false) : Writes s .datPack (packData s)
  | datUnpackAbsent (large : s.FLEN.toNat ≤ 262) (len : s.FLEN.toNat = 7 + s.LEN.toNat) (absent : s.LEN = 0#8) :
      Writes s .datUnpack (unpackData none 0x00#8 s)
  | datUnpackPresent {d : List Byte} (hd : d = Memory.readBlock s.FB 7 s.LEN.toNat) (large : s.FLEN.toNat ≤ 262)
      (len : s.FLEN.toNat = 7 + s.LEN.toNat) (present : s.LEN ≠ 0#8) (valid : check d = true)
      (short : s.LEN.toNat - 1 ≤ 252) :
      Writes s .datUnpack (unpackData (some d.dropLast) (d.getD (s.LEN.toNat - 1) 0#8) s)
  | frmEnc (short : payloadTooLong s = false) :
      Writes s .frmEnc (packData (packHeader { s with STATE := Config.STATE_REQ, LEN := lengthField s }))
  | frmDec {f : List Byte} {r : DecodedFrame} (hf : f = Memory.readBlock s.FB 0 s.FLEN.toNat)
      (large : s.FLEN.toNat ≤ 262) (decoded : decodeFrame s.okStates f = .ok r) :
      Writes s .frmDec (unpackData r.data (f.getD (6 + r.len.toNat) 0#8)
        (unpackHeader r.state r.cmd r.len r.serial (f.getD 6 0#8) s))
  | valEnc (t : ScalarType) (arr : Bool) {n : Nat} (count : elementCount t arr s.BLEN.toNat = some n)
      (given : s.VCNT.toNat = n) (writable : s.WEN ≠ 0#1) (canonical : allCanonical t s.V (min n 252) = true)
      (fits : s.OFF.toNat + s.BLEN.toNat ≤ 252) :
      Writes s (encOf arr t) { s with PB := storeElements t s.V s.OFF.toNat s.PB n }
  | valDec (t : ScalarType) (arr : Bool) {n : Nat} (count : elementCount t arr s.BLEN.toNat = some n)
      (large : s.PLEN.toNat ≤ 252) (fits : s.OFF.toNat + s.BLEN.toNat ≤ s.PLEN.toNat) :
      Writes s (decOf arr t) { s with V := loadElements t s.PB s.OFF.toNat s.V n, VCNT := BitVec.ofNat 8 n }

/-- A report a command may end with: only `DeviceStatus` has detail, a byte outside `OK_STATES` (R271, R276). -/
def Reportable (s : State) (e : Err) (info : Byte) : Prop :=
  if e = .deviceStatus then okState s.okStates info = false else info = 0x00#8

/-- The ends of a command: an error reported and nothing else changed, or its writes made and the report clear
(R272). -/
inductive Ends (i : Instr) (s : State) : Host.Outcome State Fault Refusal → Prop
  | error {e : Err} {info : Byte} (report : Reportable s e info) : Ends i s (fail e info s)
  | success {w : State} (writes : Writes s i w) : Ends i s (done w)

theorem execCrcCalc_ends (b : Buf) (s : State) : Ends (.crcCalc b) s (execCrcCalc b s) := by
  unfold execCrcCalc
  split
  · exact .error rfl
  · exact .success (.crcCalc b (Bool.eq_false_of_not_eq_true ‹_›))

theorem execCrcCheck_ends (b : Buf) (s : State) : Ends (.crcCheck b) s (execCrcCheck b s) := by
  unfold execCrcCheck
  split
  · exact .error rfl
  · exact .success (.crcCheck b (Bool.eq_false_of_not_eq_true ‹_›))

theorem execHdrUnpack_ends (s : State) : Ends .hdrUnpack s (execHdrUnpack s) := by
  unfold execHdrUnpack
  split
  · exact .error rfl
  split
  · exact .error rfl
  dsimp only
  split
  · exact .error rfl
  · rename_i large full valid
    exact .success (.hdrUnpack rfl (by simpa using large) (by simpa using full) (by simpa using valid))

theorem execDatPack_ends (s : State) : Ends .datPack s (execDatPack s) := by
  unfold execDatPack
  split
  · exact .error rfl
  · exact .success (.datPack (Bool.eq_false_of_not_eq_true ‹_›))

theorem execDatUnpack_ends (s : State) : Ends .datUnpack s (execDatUnpack s) := by
  unfold execDatUnpack
  split
  · exact .error rfl
  rename_i large
  split
  · exact .error rfl
  rename_i len
  have large : s.FLEN.toNat ≤ 262 := by simpa using large
  have len : s.FLEN.toNat = 7 + s.LEN.toNat := by simpa using len
  split
  · exact .success (.datUnpackAbsent large len ‹_›)
  rename_i present
  dsimp only
  split
  · exact .error rfl
  split
  · exact .error rfl
  · rename_i valid short
    exact .success (.datUnpackPresent rfl large len present (by simpa using valid) (by simpa using short))

theorem execFrmEnc_ends (s : State) : Ends .frmEnc s (execFrmEnc s) := by
  unfold execFrmEnc
  split
  · exact .error rfl
  · exact .success (.frmEnc (Bool.eq_false_of_not_eq_true ‹_›))

theorem execFrmDec_ends (s : State) : Ends .frmDec s (execFrmDec s) := by
  unfold execFrmDec
  split
  · exact .error rfl
  rename_i large
  dsimp only
  split
  · rename_i e info decoded
    refine .error ?_
    obtain ⟨rfl, hok, -⟩ | ⟨rfl, rfl | rfl | rfl | rfl⟩ := decodeFrame_error decoded
    · exact hok
    all_goals rfl
  · exact .success (.frmDec rfl (by simpa using large) ‹_›)

theorem valEnc_ends (t : ScalarType) (arr : Bool) (s : State) : Ends (encOf arr t) s (valEnc t arr s) := by
  obtain h | ⟨n, hn, given, ⟨-, h⟩ | ⟨-, -, h⟩ | ⟨-, -, -, h⟩ | ⟨writable, canonical, fits, h⟩⟩ :=
    valEnc_cases t arr s <;> rw [h]
  case inr.inr.inr.inr => exact .success (.valEnc t arr hn given writable canonical fits)
  all_goals exact .error rfl

theorem valDec_ends (t : ScalarType) (arr : Bool) (s : State) : Ends (decOf arr t) s (valDec t arr s) := by
  obtain ⟨-, h⟩ | ⟨n, hn, ⟨-, h⟩ | ⟨large, fits, h⟩⟩ := valDec_cases t arr s <;> rw [h]
  case inr.inr => exact .success (.valDec t arr hn large fits)
  all_goals exact .error rfl

/-- What a command can do, once for all commands. -/
theorem exec_ends (i : Instr) (s : State) : Ends i s (exec i s) := by
  induction i using Instr.byMeaning with
  | nop => exact .success .nop
  | rst => exact .success .rst
  | crcClr => exact .success .crcClr
  | crcUpd b => exact .success (.crcUpd b)
  | crcCmp b => exact .success (.crcCmp b)
  | crcCalc b => exact execCrcCalc_ends b s
  | crcCheck b => exact execCrcCheck_ends b s
  | hdrPack => exact .success .hdrPack
  | hdrUnpack => exact execHdrUnpack_ends s
  | datPack => exact execDatPack_ends s
  | datUnpack => exact execDatUnpack_ends s
  | frmEnc => exact execFrmEnc_ends s
  | frmDec => exact execFrmDec_ends s
  | valEnc t arr => exact exec_encOf t arr s ▸ valEnc_ends t arr s
  | valDec t arr => exact exec_decOf t arr s ▸ valDec_ends t arr s
  | reserved i h => exact exec_reserved h s ▸ .error rfl

/-- The state a command leaves: that of an error, or that of a success. -/
theorem exec_next {i : Instr} {s t : State} (h : exec i s = .next t) :
    (∃ e info, Reportable s e info ∧ t = State.raise e info s) ∨ (∃ w, Writes s i w ∧ t = State.succeed w) := by
  have ends := exec_ends i s
  rw [h] at ends
  generalize ho : Host.Outcome.next t = o at ends
  cases ends with
  | error report => cases ho; exact .inl ⟨_, _, report, rfl⟩
  | success writes => cases ho; exact .inr ⟨_, writes, rfl⟩

end Sys2Proof.Machine
end

section
/-! The invariant of `Safety.lean`: what keeps the spaces canonical, what keeps the report legal, and every step. -/

namespace Sys2Proof.Machine

/-! ### The canonical form of the spaces -/

theorem packHeader_spacesWf {s : State} (h : State.spacesWf s = true) : State.spacesWf (packHeader s) = true := by
  rw [spacesWf_iff] at h ⊢
  obtain ⟨hV, hFB, hPB⟩ := h
  exact ⟨hV, Memory.wf_writeBlock (by rw [hdr_length]; omega) hFB, hPB⟩

theorem PLEN_le_of_dataPresent {s : State} (short : payloadTooLong s = false) (present : dataPresent s = true) :
    s.PLEN.toNat ≤ 252 := by
  simpa [payloadTooLong, present] using short

/-- A payload that is not too long fills `FB` at most to its end: 7 + 252 + 1 bytes. -/
theorem packData_spacesWf {s : State} (short : payloadTooLong s = false) (h : State.spacesWf s = true) :
    State.spacesWf (packData s) = true := by
  cases present : dataPresent s with
  | false => rw [packData_absent present]; exact h
  | true =>
    rw [packData_present present]
    rw [spacesWf_iff] at h ⊢
    obtain ⟨hV, hFB, hPB⟩ := h
    have hlen := PLEN_le_of_dataPresent short present
    exact ⟨hV, Memory.wf_writeBlock (by rw [blk_length, payload_length]; omega) hFB, hPB⟩

theorem unpackData_spacesWf {data : Option (List Byte)} {dcrc : Byte} {s : State}
    (short : ∀ p, data = some p → p.length ≤ 252) (h : State.spacesWf s = true) :
    State.spacesWf (unpackData data dcrc s) = true := by
  cases data with
  | none => exact h
  | some p =>
    rw [spacesWf_iff] at h ⊢
    obtain ⟨hV, hFB, hPB⟩ := h
    exact ⟨hV, hFB, Memory.wf_writeBlock (by have := short p rfl; omega) hPB⟩

theorem sub_length_le (f : List Byte) (i j : Nat) : (sub f i j).length ≤ j + 1 - i := List.length_take_le ..

/-- The payload `decode` returns fits `PB` (R169). -/
theorem decodeFrame_data_length {ok : Config.OkStates} {f : List Byte} {r : DecodedFrame}
    (h : decodeFrame ok f = .ok r) : ∀ p, r.data = some p → p.length ≤ 252 := by
  obtain ⟨-, -, -, -, -, -, -, -, ⟨-, hd⟩ | ⟨-, -, short, hd⟩⟩ := decodeFrame_ok h
  · simp [hd]
  · intro p hp
    rw [hd] at hp
    cases hp
    exact (sub_length_le ..).trans (by omega)

/-- An element has at least one byte on the wire (R202). -/
theorem elementCount_le {t : ScalarType} {arr : Bool} {blen n : Nat} (h : elementCount t arr blen = some n) :
    n ≤ blen := by
  rw [(elementCount_some h).1]
  exact Nat.le_mul_of_pos_right n (ScalarType.size_pos t)

/-- What a command writes lies inside the index ranges, and keeps the canonical form. -/
theorem Writes.spacesWf {s w : State} {i : Instr} (hw : Writes s i w) (h : State.spacesWf s = true) :
    State.spacesWf w = true := by
  cases hw with
  | rst => rfl
  | hdrPack => exact packHeader_spacesWf h
  | datPack short => exact packData_spacesWf short h
  | datUnpackPresent hd _ _ _ _ short =>
    refine unpackData_spacesWf (fun p hp => ?_) h
    cases hp
    rwa [hd, List.length_dropLast, Memory.readBlock_length]
  | datUnpackAbsent => exact h
  | frmEnc short => exact packData_spacesWf short (packHeader_spacesWf h)
  | frmDec _ _ decoded => exact unpackData_spacesWf (decodeFrame_data_length decoded) h
  | valEnc t arr count _ _ _ fits =>
    rw [(elementCount_some count).1] at fits
    rw [spacesWf_iff] at h ⊢
    obtain ⟨hV, hFB, hPB⟩ := h
    exact ⟨hV, hFB, wf_storeElements t _ _ _ fits hPB⟩
  | valDec t arr count large fits =>
    have hn := elementCount_le count
    rw [spacesWf_iff] at h ⊢
    obtain ⟨hV, hFB, hPB⟩ := h
    exact ⟨wf_loadElements t _ _ _ (by omega) hV, hFB, hPB⟩
  | _ => exact h

/-! ### The legal reports -/

theorem reportLegal_congr {s t : State} (hERR : t.ERR = s.ERR) (hEINFO : t.EINFO = s.EINFO)
    (hok : t.okStates = s.okStates) : State.reportLegal t = State.reportLegal s := by
  simp only [State.reportLegal, hERR, hEINFO, hok]

theorem reportLegal_of_clear {s : State} (hERR : s.ERR = 0x00#8) (hEINFO : s.EINFO = 0x00#8) :
    State.reportLegal s = true := by
  simp [State.reportLegal, hERR, hEINFO]

/-- Every error a command may end with is one of the table of R271. -/
theorem Reportable.reportLegal {s : State} {e : Err} {info : Byte} (h : Reportable s e info) :
    State.reportLegal (State.raise e info s) = true := by
  unfold Reportable at h
  split at h
  · rename_i he
    subst he
    simp [State.reportLegal, Err.code, h]
  · subst h
    cases e with
    | deviceStatus => contradiction
    | _ => rfl

theorem exists_row_of_any {rs : List Row} {w : CmdWord} (hrs : rs ⊆ rows)
    (h : (rs.any fun r => r.hits w) = true) : ∃ r ∈ rows, r.hits w = true := by
  obtain ⟨r, hr, hits⟩ := List.any_eq_true.mp h
  exact ⟨r, hrs hr, hits⟩

/-- The four operation codes that take every argument: some row matches each of their words (R107). -/
theorem exists_row_of_fullOp {op : Byte} (hop : op ∈ [0x11#8, 0x12#8, 0x30#8, 0x31#8]) (arg : Byte) :
    ∃ r ∈ rows, r.hits (cmdWord op arg) = true := by
  have crc : ∀ op ∈ [0x11#8, 0x12#8], ∀ arg : Byte, (crcRows.any fun r => r.hits (cmdWord op arg)) = true := by
    decide +kernel
  have enc : ∀ arg : Byte, ((valEncRsvdRows ++ valEncRows).any fun r => r.hits (cmdWord 0x30#8 arg)) = true := by
    decide +kernel
  have dec : ∀ arg : Byte, ((valDecRsvdRows ++ valDecRows).any fun r => r.hits (cmdWord 0x31#8 arg)) = true := by
    decide +kernel
  simp only [List.mem_cons, List.not_mem_nil, or_false] at hop
  obtain rfl | rfl | rfl | rfl := hop
  · exact exists_row_of_any (by simp [rows]) (crc _ (by simp) arg)
  · exact exists_row_of_any (by simp [rows]) (crc _ (by simp) arg)
  · exact exists_row_of_any (by intro r; simp only [rows, List.mem_append]; tauto) (enc arg)
  · exact exists_row_of_any (by intro r; simp only [rows, List.mem_append]; tauto) (dec arg)

theorem cmdWord_op_arg (w : CmdWord) : cmdWord (CmdWord.op w) (CmdWord.arg w) = w := by
  unfold cmdWord CmdWord.op CmdWord.arg
  rw [BitVec.extractLsb'_append_extractLsb'_eq_extractLsb' (by rfl)]
  simp

theorem no_row_of_illegal {w : CmdWord} {why : Illegal} (h : decode w = .error why) :
    ∀ r ∈ rows, r.hits w = false := by
  unfold decode at h
  split at h
  · cases h
  · rename_i none
    simpa using none

theorem op_of_illegal {w : CmdWord} {why : Illegal} (h : decode w = .error why) :
    CmdWord.op w ∉ [0x11#8, 0x12#8, 0x30#8, 0x31#8] := fun hop => by
  obtain ⟨r, hr, hits⟩ := exists_row_of_fullOp hop (CmdWord.arg w)
  rw [cmdWord_op_arg, no_row_of_illegal h r hr] at hits
  cases hits

theorem illegalWord_reportLegal {w : CmdWord} {why : Illegal} (h : decode w = .error why) (s : State) :
    State.reportLegal (State.raise .illegalOp (CmdWord.op w) s) = true := by
  have hop := op_of_illegal h
  simpa [State.reportLegal, Err.code] using hop

/-! ### Every step -/

theorem exec_keepsInv {i : Instr} {s t : State} (hs : State.Inv s) (h : exec i s = .next t) : State.Inv t := by
  obtain ⟨e, info, report, rfl⟩ | ⟨w, writes, rfl⟩ := exec_next h
  · exact ⟨hs.1, report.reportLegal⟩
  · exact ⟨writes.spacesWf hs.1, reportLegal_of_clear rfl rfl⟩

/-- An access that issues no command writes no part of the report, but for the hardware reset, which clears it. -/
theorem serveAccess_reportLegal (a : Access) {s : State} (h : State.reportLegal s = true) :
    State.reportLegal (serveAccess a s) = true := by
  cases a with
  | read sp k => exact h
  | hwReset => exact reportLegal_of_clear rfl rfl
  | write sp k x =>
    simp only [serveAccess, hostWrite]
    cases sp with
    | reg =>
      obtain ⟨hERR, hEINFO, hok, -⟩ := writeReg_report s k x
      exact (reportLegal_congr hERR hEINFO hok).trans h
    | tbl => exact h
    | v | fb | pb => dsimp only; split <;> exact h

theorem step_keepsInv {s t : State} (hs : State.Inv s) (h : step s = .next t) : State.Inv t := by
  obtain ⟨-, hstep⟩ | ⟨a, rest, -, ⟨w, i, -, -, hstep⟩ | ⟨w, why, -, hw, hstep⟩ | ⟨-, hstep⟩⟩ := step_cases s
  · cases hstep.symm.trans h
    exact hs
  · exact exec_keepsInv (s := { s with pending := rest }) hs (hstep.symm.trans h)
  · cases hstep.symm.trans h
    exact ⟨hs.1, illegalWord_reportLegal hw _⟩
  · cases hstep.symm.trans h
    exact ⟨serveAccess_spacesWf a (s := { s with pending := rest }) hs.1,
      serveAccess_reportLegal a (s := { s with pending := rest }) hs.2⟩

/-- Settles O43, with the ways a step can go: what a command writes stays inside the spaces, every error it reports
is one of R271, and the other accesses leave the report alone or clear it. -/
theorem everyStepKeepsTheInvariant : Obligations.EveryStepKeepsTheInvariant :=
  fun _ _ => step_keepsInv

end Sys2Proof.Machine
end

section
/-! Noninterference: the bytes of `FB` from `FLEN` on and of `PB` from `PLEN` on are never read. Two states that
agree but for them go through every command side by side. -/

namespace Sys2Proof.Machine

/-! ### Two runs side by side -/

/-- `s` with other bytes in its buffers. -/
def State.withBuffers (s : State) (fb pb : Memory) : State := { s with FB := fb, PB := pb }

/-- The buffers agree with those of `s` on the bytes that are part of a frame and of a payload (R32, R33). -/
structure AgreeBelow (s : State) (fb pb : Memory) : Prop where
  below_FLEN : ∀ k, k < s.FLEN.toNat → Memory.read fb k = Memory.read s.FB k
  below_PLEN : ∀ k, k < s.PLEN.toNat → Memory.read pb k = Memory.read s.PB k

/-- Two buffers `m` and `n` became `m'` and `n'`: each byte is the same in both, or in both the one before. -/
def SameOrKept (m n m' n' : Memory) : Prop :=
  ∀ k, Memory.read n' k = Memory.read m' k ∨ (Memory.read m' k = Memory.read m k ∧ Memory.read n' k = Memory.read n k)

theorem SameOrKept.kept (m n : Memory) : SameOrKept m n m n := fun _ => .inr ⟨rfl, rfl⟩

theorem SameOrKept.same (m n m' : Memory) : SameOrKept m n m' m' := fun _ => .inl rfl

theorem SameOrKept.writeBlock {m n m' n' : Memory} (h : SameOrKept m n m' n') (a : Nat) (bs : List Byte) :
    SameOrKept m n (Memory.writeBlock m' a bs) (Memory.writeBlock n' a bs) := by
  intro k
  rw [Memory.read_writeBlock, Memory.read_writeBlock]
  split
  · exact .inl rfl
  · exact h k

theorem SameOrKept.storeElements {m n m' n' : Memory} (h : SameOrKept m n m' n') (t : ScalarType) (v : Cells 64)
    (off c : Nat) : SameOrKept m n (storeElements t v off m' c) (storeElements t v off n' c) := by
  induction c with
  | zero => exact h
  | succ c ih => exact ih.writeBlock _ _

/-- `t` came from `s` and `u` from `s` with the buffers `fb` and `pb`: they differ only in bytes nothing wrote. -/
structure SideBySide (s : State) (fb pb : Memory) (t u : State) : Prop where
  rest : u = t.withBuffers u.FB u.PB
  FB : SameOrKept s.FB fb t.FB u.FB
  PB : SameOrKept s.PB pb t.PB u.PB

/-- The two ends of a command from `s` and from `s` with the buffers `fb` and `pb`. -/
inductive EndSideBySide (s : State) (fb pb : Memory) :
    Host.Outcome State Fault Refusal → Host.Outcome State Fault Refusal → Prop
  | error (e : Err) (info : Byte) : EndSideBySide s fb pb (fail e info s) (fail e info (s.withBuffers fb pb))
  | success {t u : State} (h : SideBySide s fb pb t u) : EndSideBySide s fb pb (done t) (done u)

/-- The command wrote registers and `V`: no buffer moves. -/
theorem EndSideBySide.of_buffers_kept {s t : State} {fb pb : Memory} (hFB : t.FB = s.FB) (hPB : t.PB = s.PB) :
    EndSideBySide s fb pb (done t) (done (t.withBuffers fb pb)) :=
  .success ⟨rfl, hFB ▸ .kept _ _, hPB ▸ .kept _ _⟩

/-- Both runs make one check of registers alone. -/
theorem EndSideBySide.ite {s : State} {fb pb : Memory} {c : Prop} [Decidable c]
    {o₁ o₂ o₁' o₂' : Host.Outcome State Fault Refusal} (hc : c → EndSideBySide s fb pb o₁ o₁')
    (hn : ¬ c → EndSideBySide s fb pb o₂ o₂') :
    EndSideBySide s fb pb (if c then o₁ else o₂) (if c then o₁' else o₂') := by
  split
  · exact hc ‹_›
  · exact hn ‹_›

/-- A check that fails ends both runs with the same report. -/
theorem EndSideBySide.guard {s : State} {fb pb : Memory} {c : Prop} [Decidable c] {e : Err} {info : Byte}
    {o o' : Host.Outcome State Fault Refusal} (hn : ¬ c → EndSideBySide s fb pb o o') :
    EndSideBySide s fb pb (if c then fail e info s else o) (if c then fail e info (s.withBuffers fb pb) else o') :=
  .ite (fun _ => .error e info) hn

theorem EndSideBySide.next {s t : State} {fb pb : Memory} {o o' : Host.Outcome State Fault Refusal}
    (h : EndSideBySide s fb pb o o') (ho : o = .next t) : ∃ u, o' = .next u ∧ SideBySide s fb pb t u := by
  cases h with
  | error e info => cases ho; exact ⟨_, rfl, rfl, .kept _ _, .kept _ _⟩
  | @success t u h =>
    cases ho
    exact ⟨State.succeed u, rfl, congrArg State.succeed h.rest, h.FB, h.PB⟩

/-! ### What the commands read -/

section

variable {s : State} {fb pb : Memory} (h : AgreeBelow s fb pb)
include h

theorem AgreeBelow.readFrame {a n : Nat} (hn : a + n ≤ s.FLEN.toNat) :
    Memory.readBlock fb a n = Memory.readBlock s.FB a n :=
  Memory.readBlock_congr fun k _ hk => h.below_FLEN k (by omega)

theorem AgreeBelow.readPayload {a n : Nat} (hn : a + n ≤ s.PLEN.toNat) :
    Memory.readBlock pb a n = Memory.readBlock s.PB a n :=
  Memory.readBlock_congr fun k _ hk => h.below_PLEN k (by omega)

theorem AgreeBelow.payload_eq : payload (s.withBuffers fb pb) = payload s :=
  h.readPayload (by rw [Nat.zero_add]; rfl)

theorem AgreeBelow.rangeBytes_eq {b : Buf} (inside : rangeOutside b s = false) :
    rangeBytes b (s.withBuffers fb pb) = rangeBytes b s := by
  have inside : s.OFF.toNat + s.CNT.toNat ≤ bufLen b s := by
    by_contra outside
    simp [(rangeOutside_iff b s).mpr (.inr (Nat.lt_of_not_le outside))] at inside
  cases b with
  | fb => exact h.readFrame inside
  | pb => exact h.readPayload inside

/-- The elements `VAL.DEC` reads lie below `PLEN` (R211). -/
theorem AgreeBelow.loadElements_eq (t : ScalarType) (v : Cells 64) {off n : Nat}
    (hn : off + n * ScalarType.size t ≤ s.PLEN.toNat) : loadElements t pb off v n = loadElements t s.PB off v n := by
  induction n with
  | zero => rfl
  | succ n ih =>
    rw [Nat.succ_mul] at hn
    rw [loadElements, loadElements, ih (by omega), h.readPayload (by omega)]

/-! ### The commands side by side -/

omit h in
theorem SideBySide.packData {t : State} {fb' pb' : Memory} (ht : SideBySide s fb pb t (t.withBuffers fb' pb'))
    (same : payload (t.withBuffers fb' pb') = payload t) :
    SideBySide s fb pb (packData t) (packData (t.withBuffers fb' pb')) := by
  cases present : dataPresent t with
  | false =>
    have present' : dataPresent (t.withBuffers fb' pb') = false := present
    rw [packData_absent present, packData_absent present']
    exact ⟨rfl, ht.FB, ht.PB⟩
  | true =>
    have present' : dataPresent (t.withBuffers fb' pb') = true := present
    rw [packData_present present, packData_present present', same]
    exact ⟨rfl, ht.FB.writeBlock _ _, ht.PB⟩

theorem execCrcCalc_sideBySide (b : Buf) :
    EndSideBySide s fb pb (execCrcCalc b s) (execCrcCalc b (s.withBuffers fb pb)) := by
  refine .guard fun inside => ?_
  rw [h.rangeBytes_eq (Bool.eq_false_of_not_eq_true inside)]
  exact .of_buffers_kept rfl rfl

theorem execCrcCheck_sideBySide (b : Buf) :
    EndSideBySide s fb pb (execCrcCheck b s) (execCrcCheck b (s.withBuffers fb pb)) := by
  refine .guard fun inside => ?_
  rw [h.rangeBytes_eq (Bool.eq_false_of_not_eq_true inside)]
  exact .of_buffers_kept rfl rfl

theorem execHdrUnpack_sideBySide : EndSideBySide s fb pb (execHdrUnpack s) (execHdrUnpack (s.withBuffers fb pb)) := by
  refine .guard fun _ => .guard fun full => ?_
  have read : Memory.readBlock (s.withBuffers fb pb).FB 0 7 = Memory.readBlock s.FB 0 7 :=
    h.readFrame (by simpa using full)
  rw [read]
  exact .guard fun _ => .of_buffers_kept rfl rfl

theorem execDatUnpack_sideBySide : EndSideBySide s fb pb (execDatUnpack s) (execDatUnpack (s.withBuffers fb pb)) := by
  refine .guard fun _ => .guard fun len => .ite (fun _ => .of_buffers_kept rfl rfl) fun _ => ?_
  have len : s.FLEN.toNat = 7 + s.LEN.toNat := by simpa using len
  have read : Memory.readBlock (s.withBuffers fb pb).FB 7 (s.withBuffers fb pb).LEN.toNat =
      Memory.readBlock s.FB 7 s.LEN.toNat :=
    h.readFrame len.ge
  rw [read]
  exact .guard fun _ => .guard fun _ => .success ⟨rfl, .kept _ _, (SameOrKept.kept _ _).writeBlock _ _⟩

theorem execDatPack_sideBySide : EndSideBySide s fb pb (execDatPack s) (execDatPack (s.withBuffers fb pb)) :=
  .guard fun _ => .success (.packData ⟨rfl, .kept _ _, .kept _ _⟩ h.payload_eq)

theorem execFrmEnc_sideBySide : EndSideBySide s fb pb (execFrmEnc s) (execFrmEnc (s.withBuffers fb pb)) :=
  .guard fun _ => .success (.packData ⟨rfl, (SameOrKept.kept _ _).writeBlock _ _, .kept _ _⟩ h.payload_eq)

theorem execFrmDec_sideBySide : EndSideBySide s fb pb (execFrmDec s) (execFrmDec (s.withBuffers fb pb)) := by
  refine .guard fun _ => ?_
  have read : Memory.readBlock (s.withBuffers fb pb).FB 0 (s.withBuffers fb pb).FLEN.toNat =
      Memory.readBlock s.FB 0 s.FLEN.toNat :=
    h.readFrame (Nat.zero_add _).le
  rw [read]
  dsimp only
  have ok : (s.withBuffers fb pb).okStates = s.okStates := rfl
  rw [ok]
  cases decodeFrame s.okStates (Memory.readBlock s.FB 0 s.FLEN.toNat) with
  | error report => exact .error _ _
  | ok r =>
    dsimp only
    cases r.data with
    | none => exact .of_buffers_kept rfl rfl
    | some p => exact .success ⟨rfl, .kept _ _, (SameOrKept.kept _ _).writeBlock _ _⟩

theorem valDec_sideBySide (t : ScalarType) (arr : Bool) :
    EndSideBySide s fb pb (valDec t arr s) (valDec t arr (s.withBuffers fb pb)) := by
  cases count : elementCount t arr s.BLEN.toNat with
  | none =>
    have count' : elementCount t arr (s.withBuffers fb pb).BLEN.toNat = none := count
    simp only [valDec, count, count']
    exact .error _ _
  | some n =>
    have count' : elementCount t arr (s.withBuffers fb pb).BLEN.toNat = some n := count
    simp only [valDec, count, count']
    refine .guard fun inside => ?_
    rw [(elementCount_some count).1] at inside
    have fits : s.OFF.toNat + n * ScalarType.size t ≤ s.PLEN.toNat := by omega
    have read : loadElements t (s.withBuffers fb pb).PB (s.withBuffers fb pb).OFF.toNat (s.withBuffers fb pb).V n =
        loadElements t s.PB s.OFF.toNat s.V n :=
      h.loadElements_eq t s.V fits
    rw [read]
    exact .of_buffers_kept rfl rfl

omit h in
theorem valEnc_sideBySide (t : ScalarType) (arr : Bool) :
    EndSideBySide s fb pb (valEnc t arr s) (valEnc t arr (s.withBuffers fb pb)) := by
  cases count : elementCount t arr s.BLEN.toNat with
  | none =>
    have count' : elementCount t arr (s.withBuffers fb pb).BLEN.toNat = none := count
    simp only [valEnc, count, count']
    exact .error _ _
  | some n =>
    have count' : elementCount t arr (s.withBuffers fb pb).BLEN.toNat = some n := count
    simp only [valEnc, count, count']
    exact .guard fun _ => .guard fun _ => .guard fun _ => .guard fun _ =>
      .success ⟨rfl, .kept _ _, (SameOrKept.kept _ _).storeElements _ _ _ _⟩

/-- Every command, side by side. -/
theorem exec_sideBySide (i : Instr) : EndSideBySide s fb pb (exec i s) (exec i (s.withBuffers fb pb)) := by
  induction i using Instr.byMeaning with
  | nop => exact .of_buffers_kept rfl rfl
  | rst => exact .success ⟨rfl, .same _ _ _, .same _ _ _⟩
  | crcClr => exact .of_buffers_kept rfl rfl
  | crcUpd b => exact .of_buffers_kept rfl rfl
  | crcCmp b => exact .of_buffers_kept rfl rfl
  | crcCalc b => exact execCrcCalc_sideBySide h b
  | crcCheck b => exact execCrcCheck_sideBySide h b
  | hdrPack => exact .success ⟨rfl, (SameOrKept.kept _ _).writeBlock _ _, .kept _ _⟩
  | hdrUnpack => exact execHdrUnpack_sideBySide h
  | datPack => exact execDatPack_sideBySide h
  | datUnpack => exact execDatUnpack_sideBySide h
  | frmEnc => exact execFrmEnc_sideBySide h
  | frmDec => exact execFrmDec_sideBySide h
  | valEnc t arr => rw [exec_encOf, exec_encOf]; exact valEnc_sideBySide t arr
  | valDec t arr => rw [exec_decOf, exec_decOf]; exact valDec_sideBySide h t arr
  | reserved i hi => rw [exec_reserved hi, exec_reserved hi]; exact .error _ _

end

/-- Settles O42: every check and every read of a command is of a register, of `V`, or of bytes below `FLEN` and
`PLEN`, and every write writes the same bytes in both runs. -/
theorem bytesBeyondTheLengthsAreNeverRead : Obligations.BytesBeyondTheLengthsAreNeverRead := by
  intro i s t fb pb hFB hPB ht
  obtain ⟨u, hu, rest, sameFB, samePB⟩ := (exec_sideBySide ⟨hFB, hPB⟩ i).next ht
  exact ⟨u, hu, rest, sameFB, samePB⟩

end Sys2Proof.Machine
end

section
/-! Which registers and spaces a command leaves alone: the columns of R35 and R40. -/

namespace Sys2Proof.Machine

open Sys2Proof.Statement

/-! ### What the maps of R35 and R40 list for the two generic value commands -/

@[simp] theorem mayWrite_encOf (arr : Bool) (t : ScalarType) : mayWrite (encOf arr t) = [] := by cases t <;> rfl
@[simp] theorem mayWriteV_encOf (arr : Bool) (t : ScalarType) : mayWriteV (encOf arr t) = false := by cases t <;> rfl
@[simp] theorem mayWriteFB_encOf (arr : Bool) (t : ScalarType) : mayWriteFB (encOf arr t) = false := by cases t <;> rfl
@[simp] theorem mayWritePB_encOf (arr : Bool) (t : ScalarType) : mayWritePB (encOf arr t) = true := by cases t <;> rfl
@[simp] theorem mayWrite_decOf (arr : Bool) (t : ScalarType) : mayWrite (decOf arr t) = [0x12] := by cases t <;> rfl
@[simp] theorem mayWriteV_decOf (arr : Bool) (t : ScalarType) : mayWriteV (decOf arr t) = true := by cases t <;> rfl
@[simp] theorem mayWriteFB_decOf (arr : Bool) (t : ScalarType) : mayWriteFB (decOf arr t) = false := by cases t <;> rfl
@[simp] theorem mayWritePB_decOf (arr : Bool) (t : ScalarType) : mayWritePB (decOf arr t) = false := by cases t <;> rfl

/-! ### The registers as a list -/

/-- The registers a command may write, the report among them (R29, R35). -/
def mayChange (i : Instr) : List Nat := 0x01 :: 0x02 :: mayWrite i

/-- `ys` is `xs` but for entries at the numbers `ks`. -/
def SameOff (ks : List Nat) (xs ys : List Word) : Prop := ∀ k, k ∉ ks → ys[k]? = xs[k]?

theorem SameOff.refl (ks : List Nat) (xs : List Word) : SameOff ks xs xs := fun _ _ => rfl

theorem SameOff.set {ks : List Nat} {xs ys : List Word} (h : SameOff ks xs ys) (j : Nat) (x : Word)
    (hj : j ∈ ks) : SameOff ks xs (ys.set j x) := fun k hk => by
  rw [List.getElem?_set_ne (ne_of_mem_of_not_mem hj hk)]
  exact h k hk

@[simp] theorem regValues_length (s : State) : (regValues s).length = 19 := rfl

/-- `RST` may change every register but `OPC`, which holds nothing. -/
theorem rst_sameOff (s t : State) : SameOff (mayChange .rst) (regValues s) (regValues t) := fun k hk => by
  have hk : k = 0 ∨ 19 ≤ k := by simp [mayChange, mayWrite] at hk; omega
  obtain rfl | hk := hk
  · rfl
  · rw [List.getElem?_eq_none (by simpa using hk), List.getElem?_eq_none (by simpa using hk)]

section

variable {ks : List Nat} {s t : State} (h : SameOff ks (regValues s) (regValues t))
include h

theorem SameOff.raise (h1 : 0x01 ∈ ks) (h2 : 0x02 ∈ ks) (e : Err) (info : Byte) :
    SameOff ks (regValues s) (regValues (State.raise e info t)) :=
  (h.set 0x01 _ h1).set 0x02 _ h2

theorem SameOff.succeed (h1 : 0x01 ∈ ks) (h2 : 0x02 ∈ ks) : SameOff ks (regValues s) (regValues (State.succeed t)) :=
  (h.set 0x01 _ h1).set 0x02 _ h2

theorem SameOff.packHeader (h9 : 0x09 ∈ ks) (hD : 0x0D ∈ ks) :
    SameOff ks (regValues s) (regValues (packHeader t)) :=
  (h.set 0x09 _ h9).set 0x0D _ hD

theorem SameOff.packData (hA : 0x0A ∈ ks) (hD : 0x0D ∈ ks) : SameOff ks (regValues s) (regValues (packData t)) := by
  cases present : dataPresent t with
  | false => rw [packData_absent present]; exact (h.set 0x0A _ hA).set 0x0D _ hD
  | true => rw [packData_present present]; exact (h.set 0x0A _ hA).set 0x0D _ hD

theorem SameOff.unpackHeader (hks : [0x05, 0x06, 0x07, 0x08, 0x09] ⊆ ks) (st cm ln hc : Byte) (se : BitVec 24) :
    SameOff ks (regValues s) (regValues (unpackHeader st cm ln se hc t)) :=
  ((((h.set 0x05 _ (hks (by decide))).set 0x06 _ (hks (by decide))).set 0x07 _ (hks (by decide))).set 0x08 _
    (hks (by decide))).set 0x09 _ (hks (by decide))

theorem SameOff.unpackData (hks : [0x0A, 0x0B, 0x0C] ⊆ ks) (data : Option (List Byte)) (dcrc : Byte) :
    SameOff ks (regValues s) (regValues (unpackData data dcrc t)) := by
  cases data <;>
    exact ((h.set 0x0A _ (hks (by decide))).set 0x0B _ (hks (by decide))).set 0x0C _ (hks (by decide))

end

/-! ### What the writes of each command leave alone -/

theorem Writes.sameOff {i : Instr} {s w : State} (hw : Writes s i w) :
    SameOff (mayChange i) (regValues s) (regValues w) := by
  have start := SameOff.refl (mayChange i) (regValues s)
  cases hw with
  | nop => exact start
  | rst => exact rst_sameOff s _
  | crcClr | crcUpd | crcCalc => exact start.set 0x04 _ (by simp [mayChange, mayWrite])
  | crcCmp => exact start.set 0x03 _ (by simp [mayChange, mayWrite])
  | crcCheck =>
    exact (start.set 0x03 _ (by simp [mayChange, mayWrite])).set 0x04 _ (by simp [mayChange, mayWrite])
  | hdrPack => exact start.packHeader (by decide) (by decide)
  | hdrUnpack => exact start.unpackHeader (by decide) _ _ _ _ _
  | datPack => exact start.packData (by decide) (by decide)
  | datUnpackAbsent | datUnpackPresent => exact start.unpackData (by decide) _ _
  | frmEnc =>
    have fields : SameOff (mayChange .frmEnc) (regValues s)
        (regValues { s with STATE := Config.STATE_REQ, LEN := lengthField s }) :=
      (start.set 0x05 _ (by decide)).set 0x07 _ (by decide)
    exact (fields.packHeader (by decide) (by decide)).packData (by decide) (by decide)
  | frmDec => exact (start.unpackHeader (by decide) _ _ _ _ _).unpackData (by decide) _ _
  | valEnc => exact start
  | valDec => exact start.set 0x12 _ (by simp [mayChange])

theorem Writes.V_eq {i : Instr} {s w : State} (hw : Writes s i w) (hi : mayWriteV i = false) : w.V = s.V := by
  cases hw with
  | rst => cases hi
  | valDec => simp at hi
  | _ => simp

theorem Writes.FB_eq {i : Instr} {s w : State} (hw : Writes s i w) (hi : mayWriteFB i = false) : w.FB = s.FB := by
  cases hw with
  | rst | hdrPack | datPack | frmEnc => cases hi
  | _ => simp

theorem Writes.PB_eq {i : Instr} {s w : State} (hw : Writes s i w) (hi : mayWritePB i = false) : w.PB = s.PB := by
  cases hw with
  | rst | datUnpackAbsent | datUnpackPresent | frmDec => cases hi
  | valEnc => simp at hi
  | _ => simp

/-- No command touches the parameter or the host's lists, `RST` included. -/
theorem Writes.host_eq {i : Instr} {s w : State} (hw : Writes s i w) :
    w.okStates = s.okStates ∧ w.pending = s.pending ∧ w.returned = s.returned := by
  cases hw <;> simp

/-- Settles O41, with the ways a command can end: an error writes the report alone, and a success what the maps list
for the command. -/
theorem commandsWriteOnlyListedRegistersAndSpaces : Obligations.CommandsWriteOnlyListedRegistersAndSpaces := by
  intro i s t ht
  have h1 : 0x01 ∈ mayChange i := by simp [mayChange]
  have h2 : 0x02 ∈ mayChange i := by simp [mayChange]
  have off {k : Nat} (hk1 : k ≠ 0x01) (hk2 : k ≠ 0x02) (hk : k ∉ mayWrite i) : k ∉ mayChange i := by
    simp [mayChange, hk1, hk2, hk]
  obtain ⟨e, info, -, rfl⟩ | ⟨w, writes, rfl⟩ := exec_next ht
  · have regs := (SameOff.refl (mayChange i) (regValues s)).raise h1 h2 e info
    exact ⟨fun k hk1 hk2 hk => regs k (off hk1 hk2 hk), fun _ => rfl, fun _ => rfl, fun _ => rfl, rfl, rfl, rfl⟩
  · have regs := writes.sameOff.succeed h1 h2
    exact ⟨fun k hk1 hk2 hk => regs k (off hk1 hk2 hk), writes.V_eq, writes.FB_eq, writes.PB_eq, writes.host_eq⟩

end Sys2Proof.Machine
end

section
/-! The host's accesses, one step each: command issues, reads and writes. -/

namespace Sys2Proof.Machine

open Sys2Proof.Statement

/-! ### The table of R34 and the register steps of R132 -/

theorem tbl_eq_eightSteps : ∀ i : Byte, tbl i = eightSteps i := by decide +kernel

theorem crcStep_eq_eightSteps (acc b : Byte) : crcStep acc b = eightSteps (acc ^^^ b) := tbl_eq_eightSteps _

theorem crcFrom_eq_foldl (acc : Byte) (bs : List Byte) :
    crcFrom acc bs = bs.foldl (fun acc b => eightSteps (acc ^^^ b)) acc := by
  induction bs generalizing acc with
  | nil => rfl
  | cons b bs ih => rw [crcFrom, ih, crcStep_eq_eightSteps, List.foldl_cons]

/-- The table-driven checksum is the bit-serial one (R132, R133). -/
theorem crc8_eq_bitCrc (bs : List Byte) : crc8 bs = bitCrc bs := crcFrom_eq_foldl _ bs

/-! ### A step, by the next access -/

theorem step_command {s : State} {x : Word} {rest : List Access} {i : Instr}
    (hp : s.pending = .write .reg 0x00 x :: rest) (hi : decode (x.setWidth 16) = .ok i) :
    step s = exec i { s with pending := rest } := by
  simp only [step, hp, serve, commandOf, runWord, hi]

/-- Settles O6, with what `step` does at a command issue. -/
theorem stepRunsTheDecodedCommand : Obligations.StepRunsTheDecodedCommand :=
  fun _ _ _ _ => step_command

theorem step_read {s : State} {sp : Space} {k : Nat} {rest : List Access} (hp : s.pending = .read sp k :: rest) :
    step s = .next { s with pending := rest, returned := hostRead s sp k :: s.returned } := by
  simp only [step, hp, serve, commandOf, serveAccess]
  cases sp <;> rfl

theorem step_write {s : State} {sp : Space} {k : Nat} {x : Word} {rest : List Access}
    (hp : s.pending = .write sp k x :: rest) (hsp : sp ≠ .reg) :
    step s = .next (hostWrite { s with pending := rest } sp k x) := by
  cases sp with
  | reg => contradiction
  | _ => simp only [step, hp, serve, commandOf, serveAccess]

/-! ### Host reads -/

/-- The map of R35 as a list; a number outside it reads 0. -/
theorem readReg_eq_getD (s : State) (k : Nat) : State.readReg s k = (regValues s).getD k 0#64 := by
  by_cases hk : k < 19
  · interval_cases k <;> rfl
  · obtain ⟨n, rfl⟩ := Nat.exists_eq_add_of_le' (Nat.le_of_not_lt hk)
    rfl

/-- Settles O8, with what `step` does at a read, and the register map read as a list. -/
theorem hostReadOfARegisterReturnsItsValue : Obligations.HostReadOfARegisterReturnsItsValue := by
  intro s k rest hp
  rw [step_read hp, hostRead, readReg_eq_getD]

theorem hostRead_tbl (s : State) {k : Nat} (hk : k < 256) :
    hostRead s .tbl k = (eightSteps (BitVec.ofNat 8 k)).setWidth 64 := by
  simp only [hostRead, if_pos hk, tbl_eq_eightSteps]

/-- The low byte a host write stores (R255). -/
theorem setWidth_eq_lowByte (x : Word) : x.setWidth 8 = x.extractLsb' 0 8 := by
  ext; simp

/-- Settles O10, with what `step` does at a read and at a write of a space. -/
theorem hostAccessOfASpaceReachesOneUnit : Obligations.HostAccessOfASpaceReachesOneUnit := by
  intro s k x rest
  refine ⟨fun hk hp => ?_, fun hk hp => ?_, fun hk hp => ?_, fun hk hp => ?_, fun hk hp => ?_, fun hk hp => ?_,
    fun hk hp => ?_⟩
  · rw [step_read hp, hostRead, if_pos hk]
  · rw [step_read hp, hostRead, if_pos hk]
  · rw [step_read hp, hostRead, if_pos hk]
  · rw [step_read hp, hostRead_tbl s hk]
  · rw [step_write hp (by decide), hostWrite, if_pos hk, setWidth_eq_lowByte]
    exact ⟨_, rfl, rfl, fun j => Memory.read_write _ _ _ _⟩
  · rw [step_write hp (by decide), hostWrite, if_pos hk, setWidth_eq_lowByte]
    exact ⟨_, rfl, rfl, fun j => Memory.read_write _ _ _ _⟩
  · rw [step_write hp (by decide), hostWrite, if_pos hk]
    exact ⟨_, rfl, rfl, fun j => Cells.read_write _ _ _ _⟩

/-! ### The streaming commands through the command port -/

theorem decode_crcUpd_access : ∀ b : Byte, decode ((0x1100#64 + b.setWidth 64).setWidth 16) = .ok (.crcUpd b) := by
  decide +kernel

theorem decode_crcCmp_access : ∀ b : Byte, decode ((0x1200#64 + b.setWidth 64).setWidth 16) = .ok (.crcCmp b) := by
  decide +kernel

/-- A run whose first access is a command that leaves `t`. -/
theorem run_command {s t : State} {x : Word} {rest : List Access} {i : Instr} (n : Nat)
    (hp : s.pending = .write .reg 0x00 x :: rest) (hi : decode (x.setWidth 16) = .ok i)
    (ht : exec i { s with pending := rest } = .next t) :
    Host.Core.run Sys2Proof.core (n + 1) s = Host.Core.run Sys2Proof.core n t := by
  have hstep : Sys2Proof.core.step s = .next t := (step_command hp hi).trans ht
  simp only [Host.Core.run, hstep]

/-- The accesses that stream `bs` through `CRC.UPD` and compare with `c`. -/
def updatesThenCompare (bs : List Byte) (c : Byte) (rest : List Access) : List Access :=
  bs.map (fun b => .write .reg 0x00 (0x1100#64 + b.setWidth 64)) ++
    .write .reg 0x00 (0x1200#64 + c.setWidth 64) :: rest

/-- From any accumulator, by induction on the bytes (R137, R138). -/
theorem run_updatesThenCompare (bs : List Byte) (c : Byte) (rest : List Access) (s : State)
    (hp : s.pending = updatesThenCompare bs c rest) :
    Host.Core.run Sys2Proof.core (bs.length + 1) s = .next { s with
      pending := rest
      ACC := crcFrom s.ACC bs
      EQ := cmpFlag (crcFrom s.ACC bs) c
      ERR := 0x00#8
      EINFO := 0x00#8 } := by
  induction bs generalizing s with
  | nil => exact run_command 0 hp (decode_crcCmp_access c) rfl
  | cons b bs ih =>
    rw [List.length_cons, run_command _ hp (decode_crcUpd_access b) rfl, ih _ rfl]
    rfl

/-- Settles O23: after `CRC.CLR` the accumulator is 0, and the updates from 0 are the checksum (R133). -/
theorem streamedChecksumThroughTheCommandPort : Obligations.StreamedChecksumThroughTheCommandPort := by
  intro s bs c rest hp
  rw [run_command (bs.length + 1) hp (i := .crcClr) rfl rfl, run_updatesThenCompare bs c rest _ rfl,
    ← crc8_eq_bitCrc]
  rfl

/-! ### After reset -/

theorem regValues_reset : regValues State.reset = List.replicate 19 0#64 := rfl

theorem reset_inv : State.Inv State.reset := ⟨rfl, rfl⟩

/-- Settles O44, field by field of the reset table (R39). -/
theorem resetMeetsTheInvariant : Obligations.ResetMeetsTheInvariant := by
  refine ⟨reset_inv, fun k => ?_, rfl, fun _ => rfl, fun _ => rfl, fun _ => rfl, fun k hk => hostRead_tbl _ hk⟩
  rw [regValues_reset, List.getD_eq_getElem?_getD, List.getElem?_getD_replicate_default_eq]

end Sys2Proof.Machine
end

section
/-! The fields of a command word and the shapes of the rows of the opcode map (30_encoding.md R90 to R93, R103):
every word of a row is the encoding of the instruction the row builds from it. -/

namespace Sys2Proof.Machine

/-! ### The fields of a word `{op, arg}` (R90, R93, R103) -/

@[simp] theorem op_cmdWord (op arg : Byte) : CmdWord.op (cmdWord op arg) = op :=
  BitVec.extractLsb'_append_eq_left

@[simp] theorem arg_cmdWord (op arg : Byte) : CmdWord.arg (cmdWord op arg) = arg :=
  BitVec.extractLsb'_append_eq_right

@[simp] theorem arr_cmdWord_tagByte (op : Byte) (arr : Bool) (t : BitVec 7) :
    CmdWord.arr (cmdWord op (tagByte arr t)) = arr := by
  simp only [CmdWord.arr, cmdWord, tagByte, BitVec.getLsbD_append]
  simp

@[simp] theorem t_cmdWord_tagByte (op : Byte) (arr : Bool) (t : BitVec 7) :
    CmdWord.t (cmdWord op (tagByte arr t)) = t := by
  rw [CmdWord.t, cmdWord, BitVec.extractLsb'_append_eq_of_add_le (by decide)]
  exact BitVec.extractLsb'_append_eq_right

@[simp] theorem sel_cmdWord_selByte (op : Byte) (s : Buf) : CmdWord.sel (cmdWord op (selByte s)) = s := by
  rw [CmdWord.sel, cmdWord, BitVec.getLsbD_append]
  cases s <;> rfl

theorem cmdWord_inj {op op' arg arg' : Byte} : cmdWord op arg = cmdWord op' arg' ↔ op = op' ∧ arg = arg' := by
  constructor
  · intro h
    exact ⟨by simpa using congrArg CmdWord.op h, by simpa using congrArg CmdWord.arg h⟩
  · rintro ⟨rfl, rfl⟩; rfl

theorem cmdWord_and_cmdWord (op op' arg arg' : Byte) :
    cmdWord op arg &&& cmdWord op' arg' = cmdWord (op &&& op') (arg &&& arg') :=
  BitVec.and_append

theorem tagByte_and_tagByte_false (arr : Bool) (t t' : BitVec 7) :
    tagByte arr t &&& tagByte false t' = tagByte false (t &&& t') := by
  cases arr <;> exact BitVec.and_append

theorem tagByte_false_inj {t t' : BitVec 7} : tagByte false t = tagByte false t' ↔ t = t' :=
  BitVec.append_right_inj ..

theorem tagByte_arr_t (w : CmdWord) : tagByte (CmdWord.arr w) (CmdWord.t w) = CmdWord.arg w := by
  have bit : BitVec.ofBool (CmdWord.arr w) = w.extractLsb' 7 1 := by
    ext k hk
    obtain rfl : k = 0 := by omega
    simp [CmdWord.arr]
  rw [tagByte, bit, CmdWord.t, BitVec.extractLsb'_append_extractLsb'_eq_extractLsb' (by rfl)]
  rfl

theorem eq_selByte_of_and : ∀ arg : Byte, arg &&& 0xFE#8 = 0x00#8 → arg = selByte .fb ∨ arg = selByte .pb := by
  decide +kernel

theorem eq_selByte_of_half {arg : Byte} (h : arg.toNat / 2 = 0) : arg = selByte .fb ∨ arg = selByte .pb := by
  have values : arg.toNat = 0 ∨ arg.toNat = 1 := by omega
  exact values.imp BitVec.eq_of_toNat_eq BitVec.eq_of_toNat_eq

theorem selByte_sel {w : CmdWord} (h : CmdWord.arg w &&& 0xFE#8 = 0x00#8) :
    selByte (CmdWord.sel w) = CmdWord.arg w := by
  rw [← cmdWord_op_arg w, arg_cmdWord]
  obtain hs | hs := eq_selByte_of_and _ h <;> rw [hs, sel_cmdWord_selByte]

/-! ### The shapes of the rows -/

/-- Every word of the row is the encoding of the well-formed instruction the row builds from it. -/
def RowSound (r : Row) : Prop :=
  ∀ w, r.hits w = true → (r.build w).wellFormed = true ∧ encode (r.build w) = w

/-- A mask that covers the operation code fixes it and restricts the argument alone. -/
theorem hits_iff {op p m : Byte} {build : CmdWord → Instr} {w : CmdWord} :
    Row.hits ⟨cmdWord op p, cmdWord 0xFF#8 m, build⟩ w = true ↔ CmdWord.op w = op ∧ CmdWord.arg w &&& m = p := by
  have all : CmdWord.op w &&& 0xFF#8 = CmdWord.op w := BitVec.and_allOnes
  rw [Row.hits, beq_iff_eq, ← cmdWord_op_arg w, cmdWord_and_cmdWord, cmdWord_inj, cmdWord_op_arg, all]

/-- The rows without an operand. -/
theorem rowSound_fixed (op : Byte) {i : Instr} (wf : i.wellFormed = true) (enc : encode i = cmdWord op 0x00#8) :
    RowSound ⟨cmdWord op 0x00#8, 0xFFFF#16, fun _ => i⟩ := fun w hits => by
  obtain ⟨rfl, arg⟩ := hits_iff (m := 0xFF#8).mp hits
  have all : CmdWord.arg w &&& 0xFF#8 = CmdWord.arg w := BitVec.and_allOnes
  exact ⟨wf, by rw [enc, ← arg, all, cmdWord_op_arg]⟩

/-- The rows whose operand is the argument byte. -/
theorem rowSound_byte (op : Byte) {mk : Byte → Instr} (wf : ∀ b, (mk b).wellFormed = true)
    (enc : ∀ b, encode (mk b) = cmdWord op b) :
    RowSound ⟨cmdWord op 0x00#8, 0xFF00#16, fun w => mk (CmdWord.arg w)⟩ := fun w hits => by
  obtain ⟨rfl, -⟩ := hits_iff (m := 0x00#8).mp hits
  exact ⟨wf _, by rw [enc, cmdWord_op_arg]⟩

/-- The rows whose operand is the buffer select (R93). -/
theorem rowSound_select (op : Byte) {mk : Buf → Instr} (wf : ∀ s, (mk s).wellFormed = true)
    (enc : ∀ s, encode (mk s) = cmdWord op (selByte s)) :
    RowSound ⟨cmdWord op 0x00#8, 0xFFFE#16, fun w => mk (CmdWord.sel w)⟩ := fun w hits => by
  obtain ⟨rfl, arg⟩ := hits_iff (m := 0xFE#8).mp hits
  exact ⟨wf _, by rw [enc, selByte_sel arg, cmdWord_op_arg]⟩

/-- A row of the value unit, by the type fields `T` it takes (R103). -/
theorem hits_tag_iff {op : Byte} {p m : BitVec 7} {build : CmdWord → Instr} {w : CmdWord} :
    Row.hits ⟨cmdWord op (tagByte false p), cmdWord 0xFF#8 (tagByte false m), build⟩ w = true ↔
      CmdWord.op w = op ∧ CmdWord.t w &&& m = p := by
  rw [hits_iff, ← tagByte_arr_t, tagByte_and_tagByte_false, tagByte_false_inj]

/-- The rows of a defined type, whose operand is the array bit (R104). -/
theorem rowSound_type (op : Byte) (t : BitVec 7) {mk : Bool → Instr} (wf : ∀ a, (mk a).wellFormed = true)
    (enc : ∀ a, encode (mk a) = cmdWord op (tagByte a t)) :
    RowSound ⟨cmdWord op (tagByte false t), 0xFF7F#16, fun w => mk (CmdWord.arr w)⟩ := fun w hits => by
  obtain ⟨rfl, type⟩ := hits_tag_iff (m := 0x7F#7).mp hits
  have all : CmdWord.t w &&& 0x7F#7 = CmdWord.t w := BitVec.and_allOnes
  exact ⟨wf _, by rw [enc, ← type, all, tagByte_arr_t, cmdWord_op_arg]⟩

/-- The rows of the reserved tags, whose operands are the array bit and `T` (R105). -/
theorem rowSound_reserved (op : Byte) (p m : BitVec 7) {mk : Bool → BitVec 7 → Instr}
    (wf : ∀ a t, t &&& m = p → (mk a t).wellFormed = true)
    (enc : ∀ a t, encode (mk a t) = cmdWord op (tagByte a t)) :
    RowSound ⟨cmdWord op (tagByte false p), cmdWord 0xFF#8 (tagByte false m),
      fun w => mk (CmdWord.arr w) (CmdWord.t w)⟩ := fun w hits => by
  obtain ⟨rfl, tag⟩ := hits_tag_iff.mp hits
  exact ⟨wf _ _ tag, by rw [enc, tagByte_arr_t, cmdWord_op_arg]⟩

/-! ### Every row of the map (R92) -/

theorem crcRows_sound : crcRows.Forall RowSound :=
  ⟨rowSound_fixed 0x00#8 rfl rfl, rowSound_fixed 0x01#8 rfl rfl, rowSound_fixed 0x10#8 rfl rfl,
    rowSound_byte 0x11#8 (fun _ => rfl) fun _ => rfl, rowSound_byte 0x12#8 (fun _ => rfl) fun _ => rfl,
    rowSound_select 0x13#8 (fun _ => rfl) fun _ => rfl, rowSound_select 0x14#8 (fun _ => rfl) fun _ => rfl⟩

theorem frameRows_sound : frameRows.Forall RowSound :=
  ⟨rowSound_fixed 0x20#8 rfl rfl, rowSound_fixed 0x21#8 rfl rfl, rowSound_fixed 0x22#8 rfl rfl,
    rowSound_fixed 0x23#8 rfl rfl, rowSound_fixed 0x24#8 rfl rfl, rowSound_fixed 0x25#8 rfl rfl⟩

theorem valEncRows_sound : valEncRows.Forall RowSound := by
  refine ⟨rowSound_type 0x30#8 0x00#7 ?_ ?_, rowSound_type 0x30#8 0x01#7 ?_ ?_, rowSound_type 0x30#8 0x02#7 ?_ ?_,
    rowSound_type 0x30#8 0x03#7 ?_ ?_, rowSound_type 0x30#8 0x04#7 ?_ ?_, rowSound_type 0x30#8 0x05#7 ?_ ?_,
    rowSound_type 0x30#8 0x06#7 ?_ ?_, rowSound_type 0x30#8 0x07#7 ?_ ?_⟩ <;> exact fun _ => rfl

theorem valDecRows_sound : valDecRows.Forall RowSound := by
  refine ⟨rowSound_type 0x31#8 0x00#7 ?_ ?_, rowSound_type 0x31#8 0x01#7 ?_ ?_, rowSound_type 0x31#8 0x02#7 ?_ ?_,
    rowSound_type 0x31#8 0x03#7 ?_ ?_, rowSound_type 0x31#8 0x04#7 ?_ ?_, rowSound_type 0x31#8 0x05#7 ?_ ?_,
    rowSound_type 0x31#8 0x06#7 ?_ ?_, rowSound_type 0x31#8 0x07#7 ?_ ?_⟩ <;> exact fun _ => rfl

/-- The mask and match of a reserved-tag row leave `T` the range that R92 prints for it. -/
theorem tagInRow_of_and :
    (∀ t : BitVec 7, t &&& 0x78#7 = 0x08#7 → tagInRow 0x08 0x0F t = true) ∧
    (∀ t : BitVec 7, t &&& 0x70#7 = 0x10#7 → tagInRow 0x10 0x1F t = true) ∧
    (∀ t : BitVec 7, t &&& 0x60#7 = 0x20#7 → tagInRow 0x20 0x3F t = true) ∧
    (∀ t : BitVec 7, t &&& 0x40#7 = 0x40#7 → tagInRow 0x40 0x7F t = true) := by decide

theorem valEncRsvdRows_sound : valEncRsvdRows.Forall RowSound := by
  obtain ⟨t08, t10, t20, t40⟩ := tagInRow_of_and
  exact ⟨rowSound_reserved 0x30#8 0x08#7 0x78#7 (fun _ => t08) fun _ _ => rfl,
    rowSound_reserved 0x30#8 0x10#7 0x70#7 (fun _ => t10) fun _ _ => rfl,
    rowSound_reserved 0x30#8 0x20#7 0x60#7 (fun _ => t20) fun _ _ => rfl,
    rowSound_reserved 0x30#8 0x40#7 0x40#7 (fun _ => t40) fun _ _ => rfl⟩

theorem valDecRsvdRows_sound : valDecRsvdRows.Forall RowSound := by
  obtain ⟨t08, t10, t20, t40⟩ := tagInRow_of_and
  exact ⟨rowSound_reserved 0x31#8 0x08#7 0x78#7 (fun _ => t08) fun _ _ => rfl,
    rowSound_reserved 0x31#8 0x10#7 0x70#7 (fun _ => t10) fun _ _ => rfl,
    rowSound_reserved 0x31#8 0x20#7 0x60#7 (fun _ => t20) fun _ _ => rfl,
    rowSound_reserved 0x31#8 0x40#7 0x40#7 (fun _ => t40) fun _ _ => rfl⟩

theorem rows_sound : ∀ r ∈ rows, RowSound r := by
  simp only [rows, ← List.forall_iff_forall_mem, List.forall_append]
  exact ⟨⟨⟨⟨⟨crcRows_sound, frameRows_sound⟩, valEncRows_sound⟩, valDecRows_sound⟩, valEncRsvdRows_sound⟩,
    valDecRsvdRows_sound⟩

end Sys2Proof.Machine
end

section
/-! Decoding and encoding agree (30_encoding.md R91 to R93, R107): the one row a word matches, the row of an
instruction, and the legal words. -/

namespace Sys2Proof.Machine

open Sys2Proof.Statement Sys2Proof.Laws

/-! ### The rows are disjoint, so the first match is the only one (R91) -/

/-- Two rows that differ in a bit of both masks share no word. -/
theorem not_hits_both {r r' : Row} (differ : r.pattern &&& r'.mask ≠ r'.pattern &&& r.mask) (w : CmdWord) :
    ¬ (r.hits w = true ∧ r'.hits w = true) := by
  rintro ⟨hits, hits'⟩
  apply differ
  calc r.pattern &&& r'.mask = w &&& r.mask &&& r'.mask := by rw [eq_of_beq hits]
    _ = w &&& r'.mask &&& r.mask := by rw [BitVec.and_assoc, BitVec.and_comm r.mask, BitVec.and_assoc]
    _ = r'.pattern &&& r.mask := by rw [eq_of_beq hits']

theorem rows_differ : rows.Pairwise fun r r' => r.pattern &&& r'.mask ≠ r'.pattern &&& r.mask := by decide

theorem rows_disjoint (w : CmdWord) : rows.Pairwise fun r r' => ¬ (r.hits w = true ∧ r'.hits w = true) :=
  rows_differ.imp fun differ => not_hits_both differ w

theorem length_filter_hits_le_one (w : CmdWord) : (rows.filter fun r => r.hits w).length ≤ 1 := by
  by_contra! many
  have apart := List.pairwise_iff_getElem.mp ((rows_disjoint w).filter fun r => r.hits w)
  have hit (k : Nat) (hk : k < (rows.filter fun r => r.hits w).length) :=
    (List.mem_filter.mp (List.getElem_mem hk)).2
  exact apart 0 1 (by omega) many zero_lt_one ⟨hit 0 _, hit 1 _⟩

theorem row_unique {r r' : Row} {w : CmdWord} (hr : r ∈ rows) (hr' : r' ∈ rows) (hits : r.hits w = true)
    (hits' : r'.hits w = true) : r = r' := by
  have : Std.Symm fun r r' : Row => ¬ (r.hits w = true ∧ r'.hits w = true) := ⟨fun _ _ => mt And.symm⟩
  by_contra ne
  exact (rows_disjoint w).forall hr hr' ne ⟨hits, hits'⟩

theorem decode_ok_iff {w : CmdWord} {i : Instr} :
    decode w = .ok i ↔ ∃ r ∈ rows, r.hits w = true ∧ r.build w = i := by
  unfold decode
  split
  case h_1 r found =>
    have hr := List.mem_of_find?_eq_some found
    have hits := List.find?_some found
    constructor
    · intro h; cases h; exact ⟨r, hr, hits, rfl⟩
    · rintro ⟨r', hr', hits', rfl⟩
      rw [row_unique hr hr' hits hits']
  case h_2 none =>
    have miss := List.find?_eq_none.mp none
    constructor
    · intro h; cases h
    · rintro ⟨r, hr, hits, -⟩; exact absurd hits (miss r hr)

theorem decode_error_of_no_row {w : CmdWord} (h : ∀ r ∈ rows, ¬ r.hits w = true) :
    decode w = .error (illegalReason w) := by
  rw [decode, List.find?_eq_none.mpr h]

theorem exists_decode_ok_iff {w : CmdWord} : (∃ i, decode w = .ok i) ↔ ∃ r ∈ rows, r.hits w = true := by
  simp only [decode_ok_iff]
  constructor
  · rintro ⟨i, r, hr, hits, -⟩; exact ⟨r, hr, hits⟩
  · rintro ⟨r, hr, hits⟩; exact ⟨_, r, hr, hits, rfl⟩

/-- Settles O2: the word is one of a row, and every row is sound. -/
theorem encodeGivesBackEveryDecodedWord : Obligations.EncodeGivesBackEveryDecodedWord := by
  intro w i h
  obtain ⟨r, hr, hits, rfl⟩ := decode_ok_iff.mp h
  exact rows_sound r hr w hits

/-! ### The row of an instruction -/

theorem rowTable_eq_map_rows : rowTable = rows.map fun r => (r.pattern, r.mask) := rfl

theorem rowTable_rowIndex (i : Instr) : rowTable[rowIndex i]? = some (MatchesRow.row i) := by
  cases i <;> rfl

/-- The case by case laws of `Laws/MatchesRow.lean`, as one statement. -/
theorem encode_matches_row : ∀ i : Instr, MatchesRow.Statement i
  | .nop => MatchesRow.nop
  | .rst => MatchesRow.rst
  | .crcClr => MatchesRow.crcClr
  | .crcUpd b => MatchesRow.crcUpd b
  | .crcCmp b => MatchesRow.crcCmp b
  | .crcCalc s => MatchesRow.crcCalc s
  | .crcCheck s => MatchesRow.crcCheck s
  | .hdrPack => MatchesRow.hdrPack
  | .hdrUnpack => MatchesRow.hdrUnpack
  | .datPack => MatchesRow.datPack
  | .datUnpack => MatchesRow.datUnpack
  | .frmEnc => MatchesRow.frmEnc
  | .frmDec => MatchesRow.frmDec
  | .valEncU8 a => MatchesRow.valEncU8 a
  | .valEncI8 a => MatchesRow.valEncI8 a
  | .valEncU16 a => MatchesRow.valEncU16 a
  | .valEncI16 a => MatchesRow.valEncI16 a
  | .valEncU32 a => MatchesRow.valEncU32 a
  | .valEncI32 a => MatchesRow.valEncI32 a
  | .valEncF32 a => MatchesRow.valEncF32 a
  | .valEncF64 a => MatchesRow.valEncF64 a
  | .valDecU8 a => MatchesRow.valDecU8 a
  | .valDecI8 a => MatchesRow.valDecI8 a
  | .valDecU16 a => MatchesRow.valDecU16 a
  | .valDecI16 a => MatchesRow.valDecI16 a
  | .valDecU32 a => MatchesRow.valDecU32 a
  | .valDecI32 a => MatchesRow.valDecI32 a
  | .valDecF32 a => MatchesRow.valDecF32 a
  | .valDecF64 a => MatchesRow.valDecF64 a
  | .valEncRsvd08 a t => MatchesRow.valEncRsvd08 a t
  | .valEncRsvd10 a t => MatchesRow.valEncRsvd10 a t
  | .valEncRsvd20 a t => MatchesRow.valEncRsvd20 a t
  | .valEncRsvd40 a t => MatchesRow.valEncRsvd40 a t
  | .valDecRsvd08 a t => MatchesRow.valDecRsvd08 a t
  | .valDecRsvd10 a t => MatchesRow.valDecRsvd10 a t
  | .valDecRsvd20 a t => MatchesRow.valDecRsvd20 a t
  | .valDecRsvd40 a t => MatchesRow.valDecRsvd40 a t

/-- The row of an instruction reads every operand back from the instruction's word. -/
theorem build_encode (i : Instr) {r : Row} (h : rows[rowIndex i]? = some r) : r.build (encode i) = i := by
  cases i <;> cases h <;>
    simp only [encode, arg_cmdWord, sel_cmdWord_selByte, arr_cmdWord_tagByte, t_cmdWord_tagByte]

/-- The row of a well-formed instruction takes its word and builds it again. -/
theorem exists_row_of_encode {i : Instr} (wf : i.wellFormed = true) :
    ∃ r ∈ rows, r.hits (encode i) = true ∧ r.build (encode i) = i := by
  have entry := rowTable_rowIndex i
  rw [rowTable_eq_map_rows, List.getElem?_map, Option.map_eq_some_iff] at entry
  obtain ⟨r, hr, columns⟩ := entry
  refine ⟨r, List.mem_of_getElem? hr, ?_, build_encode i hr⟩
  have matched := encode_matches_row i wf
  rw [← columns] at matched
  exact beq_iff_eq.mpr matched

/-- Settles O1: the row of the instruction takes its word, and it is the only one that does. -/
theorem decodeReadsBackEveryEncodedInstr : Obligations.DecodeReadsBackEveryEncodedInstr :=
  fun _ wf => decode_ok_iff.mpr (exists_row_of_encode wf)

/-! ### The rows by number -/

theorem rowIndex_build (w : CmdWord) : rows.map (fun r => rowIndex (r.build w)) = List.range 37 := rfl

theorem rowIndex_of_getElem? {k : Nat} {r : Row} (h : rows[k]? = some r) (w : CmdWord) :
    rowIndex (r.build w) = k := by
  have entry := congrArg (·[k]?) (rowIndex_build w)
  simp only [List.getElem?_map, h, Option.map_some] at entry
  obtain ⟨_, number⟩ := List.getElem?_eq_some_iff.mp entry.symm
  rw [← number, List.getElem_range]

/-- Settles O3: `rowTable` is the decoder's own map, whose rows are disjoint and numbered in order. -/
theorem decodingFollowsTheOneMatchingRow : Obligations.DecodingFollowsTheOneMatchingRow := by
  intro w
  rw [rowTable_eq_map_rows]
  refine ⟨?_, ?_, ?_⟩
  · rw [List.filter_map, List.length_map]
    exact length_filter_hits_le_one w
  · intro k c hc matched
    rw [List.getElem?_map, Option.map_eq_some_iff] at hc
    obtain ⟨r, hr, rfl⟩ := hc
    exact ⟨r.build w, decode_ok_iff.mpr ⟨r, List.mem_of_getElem? hr, beq_iff_eq.mpr matched, rfl⟩,
      rowIndex_of_getElem? hr w⟩
  · intro miss
    refine ⟨illegalReason w, decode_error_of_no_row fun r hr hits => ?_⟩
    exact miss _ (List.mem_map_of_mem hr) (eq_of_beq hits)

/-! ### The legal words (R107) -/

theorem legalWord_cmdWord (op arg : Byte) : legalWord (cmdWord op arg) ↔
    op ∈ [0x11#8, 0x12#8, 0x30#8, 0x31#8] ∨ (op ∈ opsWithoutArg ∧ arg = 0x00#8) ∨
      (op ∈ [0x13#8, 0x14#8] ∧ arg.toNat / 2 = 0) := by
  have hop := op_cmdWord op arg
  have harg := arg_cmdWord op arg
  unfold CmdWord.op at hop
  unfold CmdWord.arg at harg
  simp only [legalWord, hop, harg, opsWithoutArg]

theorem legalWord_encode (i : Instr) : legalWord (encode i) := by
  cases i with
  | crcCalc s | crcCheck s => cases s <;> simp [encode, legalWord_cmdWord, selByte]
  | _ => simp [encode, legalWord_cmdWord, opsWithoutArg]

theorem exists_row_of_opWithoutArg {op : Byte} (hop : op ∈ opsWithoutArg) :
    ∃ r ∈ rows, r.hits (cmdWord op 0x00#8) = true := by
  have matched : ∀ op ∈ opsWithoutArg, (rows.any fun r => r.hits (cmdWord op 0x00#8)) = true := by decide
  exact exists_row_of_any (List.Subset.refl _) (matched op hop)

theorem exists_row_of_selectOp {op arg : Byte} (hop : op ∈ [0x13#8, 0x14#8]) (harg : arg.toNat / 2 = 0) :
    ∃ r ∈ rows, r.hits (cmdWord op arg) = true := by
  have matched : ∀ op ∈ [0x13#8, 0x14#8], ∀ arg ∈ [selByte .fb, selByte .pb],
      (rows.any fun r => r.hits (cmdWord op arg)) = true := by decide
  exact exists_row_of_any (List.Subset.refl _) (matched op hop arg (by simpa using eq_selByte_of_half harg))

/-- Settles O4: a word that decodes is an encoding, hence listed, and a row takes each of the listed words. -/
theorem legalWordsAreExactlyTheListed : Obligations.LegalWordsAreExactlyTheListed := by
  intro w
  constructor
  · rintro ⟨i, h⟩
    rw [← (encodeGivesBackEveryDecodedWord w i h).2]
    exact legalWord_encode i
  · intro legal
    rw [exists_decode_ok_iff]
    rw [← cmdWord_op_arg w, legalWord_cmdWord] at legal
    rw [← cmdWord_op_arg w]
    obtain hop | ⟨hop, harg⟩ | ⟨hop, harg⟩ := legal
    · exact exists_row_of_fullOp hop _
    · rw [harg]; exact exists_row_of_opWithoutArg hop
    · exact exists_row_of_selectOp hop harg

/-- Settles O5, each word by its row or its reason. -/
theorem writtenOutWordsDecode : Obligations.WrittenOutWordsDecode :=
  ⟨rfl, rfl, rfl, rfl, rfl, rfl, rfl, rfl, rfl, rfl⟩

end Sys2Proof.Machine
end

section
/-! The checksum (40_crc.md R132 to R135): the table is additive over XOR and a permutation of the bytes, and what
the loop of R133 does on a sequence put together from two. -/

namespace Sys2Proof.Machine

open Sys2Proof.Statement

/-! ### The register steps of R132 and the table -/

/-- The XOR constant follows the bit shifted out, and shifting is additive too. -/
theorem shiftStep_xor (a b : Byte) : shiftStep (a ^^^ b) = shiftStep a ^^^ shiftStep b := by
  unfold shiftStep
  rw [BitVec.getLsbD_xor, BitVec.ushiftRight_xor_distrib]
  cases a.getLsbD 0 <;> cases b.getLsbD 0
  case false.false => rfl
  case false.true => exact BitVec.xor_assoc ..
  case true.false =>
    change a >>> 1 ^^^ b >>> 1 ^^^ 0x8C#8 = (a >>> 1 ^^^ 0x8C#8) ^^^ b >>> 1
    ac_rfl
  case true.true =>
    calc a >>> 1 ^^^ b >>> 1 = a >>> 1 ^^^ b >>> 1 ^^^ (0x8C#8 ^^^ 0x8C#8) := (BitVec.xor_zero ..).symm
      _ = (a >>> 1 ^^^ 0x8C#8) ^^^ (b >>> 1 ^^^ 0x8C#8) := by ac_rfl

theorem eightSteps_xor (a b : Byte) : eightSteps (a ^^^ b) = eightSteps a ^^^ eightSteps b := by
  simp only [eightSteps, shiftStep_xor]

theorem tbl_xor (a b : Byte) : tbl (a ^^^ b) = tbl a ^^^ tbl b := by
  simp only [tbl_eq_eightSteps, eightSteps_xor]

theorem tbl_zero : tbl 0x00#8 = 0x00#8 := rfl

theorem eq_zero_of_tbl_eq_zero : ∀ i : Byte, tbl i = 0x00#8 → i = 0x00#8 := by decide +kernel

/-- By additivity it is enough that only `TBL[0x00]` is 0x00. -/
theorem tbl_injective : Function.Injective tbl := by
  intro a b h
  rw [← BitVec.xor_eq_zero_iff]
  apply eq_zero_of_tbl_eq_zero
  rw [tbl_xor, h, BitVec.xor_self]

/-- Settles O15: eight additive register steps, with no other zero than that of 0x00, hence a permutation. -/
theorem tableIsTheEightStepConstruction : Obligations.TableIsTheEightStepConstruction :=
  ⟨tbl_eq_eightSteps, Finite.surjective_of_injective tbl_injective, tbl_xor⟩

/-! ### The loop of R133 -/

theorem crcFrom_append (acc : Byte) (a b : List Byte) : crcFrom acc (a ++ b) = crcFrom (crcFrom acc a) b := by
  simp only [crcFrom_eq_foldl, List.foldl_append]

theorem crc8_concat (s : List Byte) (c : Byte) : crc8 (s ++ [c]) = tbl (crc8 s ^^^ c) :=
  crcFrom_append _ s [c]

/-- The loop as R133 writes it, with the table. -/
theorem crcFrom_eq_foldl_tbl (acc : Byte) (s : List Byte) :
    crcFrom acc s = s.foldl (fun acc x => tbl (acc ^^^ x)) acc := by
  simp only [crcFrom_eq_foldl, tbl_eq_eightSteps]

theorem check_concat_iff {s : List Byte} {c : Byte} : check (s ++ [c]) = true ↔ crc8 s = c := by
  rw [check_concat, beq_iff_eq]

/-- Settles O16: the table entry of every step is the eight register steps. -/
theorem crc8AndCheckAreTheBitSerialChecksum : Obligations.Crc8AndCheckAreTheBitSerialChecksum :=
  ⟨crc8_eq_bitCrc, rfl, check_nil, fun s _ => crc8_eq_bitCrc s ▸ check_concat_iff⟩

/-- Settles O17, each law from the loop over a sequence and one more byte; (c) also from the table being a
permutation. -/
theorem checksumLaws : Obligations.ChecksumLaws := by
  refine ⟨fun a b => ?_, fun s => ?_, fun p c => check_concat_iff.trans eq_comm, fun p c d different same => ?_,
    fun s => congrArg (crcFrom · s) tbl_zero⟩
  · exact (crcFrom_append _ a b).trans (crcFrom_eq_foldl_tbl _ b)
  · rw [crc8_concat, BitVec.xor_self]; exact tbl_zero
  · rw [crc8_concat, crc8_concat] at same
    exact different ((BitVec.xor_right_inj _).mp (tbl_injective same))

end Sys2Proof.Machine
end

section
/-! The commands of the CRC unit (40_crc.md R136 to R140): their words, the streaming commands over a sequence, and
the two range commands for either buffer. -/

namespace Sys2Proof.Machine

open Sys2Proof.Statement

/-! ### The words with a byte argument (R90, R93) -/

theorem add_setWidth_eq_cmdWord (op b : Byte) : cmdWord op 0x00#8 + b.setWidth 16 = cmdWord op b := by
  have low : b.setWidth 16 = cmdWord 0x00#8 b := BitVec.setWidth_eq_append (by decide)
  have apart : cmdWord op 0x00#8 &&& cmdWord 0x00#8 b = 0#16 := by
    rw [cmdWord_and_cmdWord, BitVec.and_zero, BitVec.zero_and]; rfl
  calc cmdWord op 0x00#8 + b.setWidth 16 = cmdWord op 0x00#8 ||| cmdWord 0x00#8 b := by
        rw [low, BitVec.add_eq_or_of_and_eq_zero _ _ apart]
    _ = cmdWord op b := by
        rw [cmdWord, cmdWord, BitVec.or_append, BitVec.or_zero, BitVec.zero_or]; rfl

theorem decode_crcUpd (b : Byte) : decode (0x1100#16 + b.setWidth 16) = .ok (.crcUpd b) :=
  (add_setWidth_eq_cmdWord 0x11#8 b).symm ▸ decodeReadsBackEveryEncodedInstr (.crcUpd b) rfl

theorem decode_crcCmp (b : Byte) : decode (0x1200#16 + b.setWidth 16) = .ok (.crcCmp b) :=
  (add_setWidth_eq_cmdWord 0x12#8 b).symm ▸ decodeReadsBackEveryEncodedInstr (.crcCmp b) rfl

/-! ### The streaming commands -/

/-- Settles O18: the word is a fixed one, and `CRC_INIT` is 0x00. -/
theorem crcClrZeroesTheAccumulator : Obligations.CrcClrZeroesTheAccumulator := ⟨rfl, fun _ => rfl⟩

theorem execAll_cons {i : Instr} {s t : State} (is : List Instr) (h : exec i s = .next t) :
    execAll (i :: is) s = execAll is t := by
  rw [execAll, h]

theorem execAll_append {is : List Instr} {s t : State} (js : List Instr) (h : execAll is s = .next t) :
    execAll (is ++ js) s = execAll js t := by
  induction is generalizing s with
  | nil => cases h; rfl
  | cons i is ih =>
    rw [List.cons_append, execAll]
    rw [execAll] at h
    cases hi : exec i s with
    | next u => rw [hi] at h; exact ih h
    | fault r | refused r => rw [hi] at h; cases h

/-- One `CRC.UPD` a byte runs the loop of R133 from the accumulator, after any command that succeeded. -/
theorem execAll_crcUpd (bs : List Byte) (s : State) :
    execAll (bs.map .crcUpd) (State.succeed s) = .next (State.succeed { s with ACC := crcFrom s.ACC bs }) := by
  induction bs generalizing s with
  | nil => rfl
  | cons b bs ih =>
    exact (execAll_cons (bs.map .crcUpd) rfl).trans (ih { s with ACC := crcStep s.ACC b })

/-- After `CRC.CLR` the loop starts from `CRC_INIT`, so the accumulator ends as the `crc8` of the bytes. -/
theorem execAll_crcClr_crcUpd (bs : List Byte) (s : State) :
    execAll (.crcClr :: bs.map .crcUpd) s = .next (State.succeed { s with ACC := crc8 bs }) :=
  (execAll_cons (bs.map .crcUpd) rfl).trans (execAll_crcUpd bs { s with ACC := Config.CRC_INIT })

/-- Settles O19: the table entry is the eight register steps, for one byte and along the stream. -/
theorem crcUpdFeedsOneByte : Obligations.CrcUpdFeedsOneByte := by
  refine ⟨decode_crcUpd, fun s b => ?_, fun s bs => ?_⟩
  · rw [← crcStep_eq_eightSteps]; rfl
  · rw [execAll_crcClr_crcUpd, crc8_eq_bitCrc]; rfl

theorem cmpFlag_eq_one_iff {acc b : Byte} : cmpFlag acc b = 1#1 ↔ acc = b := by
  unfold cmpFlag; split <;> simp [*]

/-- Settles O20: `EQ` is the comparison of the accumulator, which after the stream is the `crc8` of the bytes. -/
theorem crcCmpComparesTheAccumulator : Obligations.CrcCmpComparesTheAccumulator := by
  refine ⟨decode_crcCmp, fun s b => rfl, fun s p c => ?_⟩
  refine ⟨_, execAll_append [.crcCmp c] (execAll_crcClr_crcUpd p s), rfl, ?_⟩
  exact cmpFlag_eq_one_iff.trans check_concat_iff.symm

/-! ### The bytes of a range -/

theorem Memory.readBlock_succ (m : Memory) (a n : Nat) :
    Memory.readBlock m a (n + 1) = Memory.readBlock m a n ++ [Memory.read m (a + n)] :=
  Memory.readBlock_add m a n 1

theorem bytesAt_succ (m : Memory) (a n : Nat) : bytesAt m a (n + 1) = bytesAt m a n ++ [Memory.read m (a + n)] := by
  simp only [bytesAt, List.range_succ, List.map_append, List.map_cons, List.map_nil]

theorem Memory.readBlock_eq_bytesAt (m : Memory) (a n : Nat) : Memory.readBlock m a n = bytesAt m a n := by
  induction n with
  | zero => rfl
  | succ n ih => rw [Memory.readBlock_succ, bytesAt_succ, ih]

/-! ### The range commands -/

/-- `CRC.CALC` of either buffer (R139). -/
theorem exec_crcCalc (b : Buf) (s : State) :
    exec (.crcCalc b) s =
      if bufSize b < bufLen b s ∨ bufLen b s < s.OFF.toNat + s.CNT.toNat then raised s 0x0A#8 0x00#8
      else .next { s with
        ACC := bitCrc (bytesAt (bufOf b s) s.OFF.toNat s.CNT.toNat), ERR := 0x00#8, EINFO := 0x00#8 } := by
  rw [exec, execCrcCalc, rangeBytes, crc8_eq_bitCrc, Memory.readBlock_eq_bytesAt]
  simp only [rangeOutside_iff]
  rfl

/-- Settles O21, both buffers by one law. -/
theorem crcCalcIsTheChecksumOfTheRange : Obligations.CrcCalcIsTheChecksumOfTheRange :=
  ⟨rfl, rfl, fun s => ⟨exec_crcCalc .fb s, exec_crcCalc .pb s⟩⟩

theorem checkFlag_concat (s : List Byte) (c : Byte) : checkFlag (s ++ [c]) = (crc8 s, cmpFlag (crc8 s) c) := by
  simp only [checkFlag, List.getLast?_concat, List.dropLast_concat]

/-- `CRC.CHECK` of either buffer (R140); of a range that is not empty the last byte is split off. -/
theorem exec_crcCheck (b : Buf) (s : State) :
    exec (.crcCheck b) s =
      if bufSize b < bufLen b s ∨ bufLen b s < s.OFF.toNat + s.CNT.toNat then raised s 0x0A#8 0x00#8
      else if s.CNT.toNat = 0 then .next { s with ACC := 0x00#8, EQ := 0#1, ERR := 0x00#8, EINFO := 0x00#8 }
      else .next { s with
        ACC := bitCrc (bytesAt (bufOf b s) s.OFF.toNat (s.CNT.toNat - 1))
        EQ := if crcFollows (bufOf b s) s.OFF.toNat (s.CNT.toNat - 1) then 1#1 else 0#1
        ERR := 0x00#8
        EINFO := 0x00#8 } := by
  rw [exec, execCrcCheck, rangeBytes]
  simp only [rangeOutside_iff]
  congr 1
  cases s.CNT.toNat with
  | zero => rfl
  | succ n =>
    rw [Memory.readBlock_succ, checkFlag_concat, crc8_eq_bitCrc, Memory.readBlock_eq_bytesAt]
    rfl

/-- Settles O22, both buffers by one law. -/
theorem crcCheckComparesTheTrailingByte : Obligations.CrcCheckComparesTheTrailingByte := by
  refine ⟨rfl, rfl, fun s b m len size buffer => ?_⟩
  obtain ⟨rfl, rfl, rfl, rfl⟩ | ⟨rfl, rfl, rfl, rfl⟩ := buffer
  · exact exec_crcCheck .fb s
  · exact exec_crcCheck .pb s

end Sys2Proof.Machine
end

section
/-! The receiving commands of the frame unit (41_frame.md R166, R168, R173): a buffer as header and data block, and
each command by the checks it makes. -/

namespace Sys2Proof.Machine

open Sys2Proof.Statement

/-! ### Blocks of a buffer -/

theorem sub_readBlock (m : Memory) {a n i j p : Nat} (hp : j + 1 = i + p) (hj : j < n) :
    sub (Memory.readBlock m a n) i j = Memory.readBlock m (a + i) p := by
  have parts : n = i + (p + (n - (j + 1))) := by omega
  rw [sub, parts, Memory.readBlock_add, List.drop_left' (Memory.readBlock_length ..), Memory.readBlock_add, hp,
    Nat.add_sub_cancel_left, List.take_left' (Memory.readBlock_length ..)]

/-- `check` of `n + 1` bytes of a buffer (R134). -/
theorem check_readBlock_succ {m : Memory} {a n : Nat} :
    check (Memory.readBlock m a (n + 1)) = true ↔ crcFollows m a n := by
  rw [Memory.readBlock_succ, check_concat_iff, crc8_eq_bitCrc, Memory.readBlock_eq_bytesAt]

theorem not_check_readBlock_succ {m : Memory} {a n : Nat} :
    (!check (Memory.readBlock m a (n + 1))) = true ↔ ¬ crcFollows m a n := by
  rw [← check_readBlock_succ, Bool.not_eq_true', Bool.not_eq_true]

theorem okState_iff (s : State) (b : Byte) : okState s.okStates b = true ↔ accepted s b := by
  simp [okState]

/-! ### The serial number (R10, R161) -/

theorem leBytes_three (v : BitVec 24) :
    leBytes 3 v = [v.extractLsb' 0 8, v.extractLsb' 8 8, v.extractLsb' 16 8] := by
  refine List.ext_getElem rfl fun k hk _ => ?_
  rw [← List.getD_eq_getElem _ 0#8, leBytes_getD 3 v k _ (by simpa using hk)]
  rw [leBytes_length] at hk
  interval_cases k <;> rfl

theorem ofNat_fromLe_three (a b c : Byte) : BitVec.ofNat 24 (fromLe [a, b, c]) = c ++ b ++ a := by
  apply BitVec.eq_of_toNat_eq
  rw [BitVec.toNat_append, BitVec.toNat_append, ← Nat.shiftLeft_add_eq_or_of_lt a.isLt,
    ← Nat.shiftLeft_add_eq_or_of_lt b.isLt]
  have ha := a.isLt
  have hb := b.isLt
  have hc := c.isLt
  simp only [fromLe, BitVec.toNat_ofNat, Nat.shiftLeft_eq]
  omega

theorem append_serial_bytes (v : BitVec 24) :
    v.extractLsb' 16 8 ++ v.extractLsb' 8 8 ++ v.extractLsb' 0 8 = v := by
  rw [BitVec.extractLsb'_append_extractLsb'_eq_extractLsb' (by rfl),
    BitVec.extractLsb'_append_extractLsb'_eq_extractLsb' (by rfl)]
  simp

/-! ### The two halves of a received frame -/

/-- The header of `FB` in the header registers (R166). -/
def readHeader (s : State) : State :=
  unpackHeader (Memory.read s.FB 0) (Memory.read s.FB 1) (Memory.read s.FB 2)
    (Memory.read s.FB 5 ++ Memory.read s.FB 4 ++ Memory.read s.FB 3) (Memory.read s.FB 6) s

@[simp] theorem readHeader_LEN (s : State) : (readHeader s).LEN = Memory.read s.FB 2 := rfl
@[simp] theorem readHeader_FLEN (s : State) : (readHeader s).FLEN = s.FLEN := rfl
@[simp] theorem readHeader_FB (s : State) : (readHeader s).FB = s.FB := rfl

/-- The payload that `FB` holds after the header, `LEN` being `len`; none when there is no data block (R163). -/
def receivedPayload (fb : Memory) (len : Nat) : Option (List Byte) :=
  if len = 0 then none else some (Memory.readBlock fb 7 (len - 1))

/-- The data block of `FB`, by `LEN`, in the payload registers and `PB` (R168). -/
def readData (s : State) : State :=
  unpackData (receivedPayload s.FB s.LEN.toNat) (Memory.read s.FB (6 + s.LEN.toNat)) s

theorem readData_eq (s : State) :
    readData s = { s with
      DPRES := if s.LEN.toNat = 0 then 0#1 else 1#1
      PLEN := (readData s).PLEN
      DCRC := if s.LEN.toNat = 0 then 0x00#8 else Memory.read s.FB (6 + s.LEN.toNat)
      PB := (readData s).PB } := by
  unfold readData receivedPayload
  split <;> rfl

theorem readData_PLEN (s : State) : (readData s).PLEN.toNat = s.LEN.toNat - 1 := by
  unfold readData receivedPayload
  split
  · simp [unpackData_none, *]
  · have := s.LEN.isLt
    simp only [unpackData_some, Memory.readBlock_length, BitVec.toNat_ofNat]
    omega

theorem read_readData_PB (s : State) (k : Nat) :
    Memory.read (readData s).PB k =
      if k < s.LEN.toNat - 1 then Memory.read s.FB (7 + k) else Memory.read s.PB k := by
  unfold readData receivedPayload
  split
  · rw [if_neg (by omega)]; rfl
  · simp only [unpackData_some, Memory.read_writeBlock, Memory.readBlock_length, Nat.zero_le, true_and, Nat.zero_add,
      Nat.sub_zero]
    exact ite_congr rfl (fun hk => Memory.readBlock_getD s.FB 7 _ k _ hk) fun _ => rfl

theorem succeed_readData_succeed (s : State) :
    State.succeed (readData (State.succeed s)) = State.succeed (readData s) := by
  simp only [readData, State.succeed_LEN, State.succeed_FB]
  cases receivedPayload s.FB s.LEN.toNat <;> rfl

/-! ### The receiving commands by their checks -/

/-- A check that raises the same error on both sides. -/
theorem guard_congr {α : Sort*} {p q : Prop} [Decidable p] [Decidable q] {e x y : α} (checks : p ↔ q)
    (rest : ¬ q → x = y) : (if p then e else x) = if q then e else y :=
  ite_congr (propext checks) (fun _ => rfl) rest

/-- `HDR.UNPACK` (R166). -/
theorem exec_hdrUnpack (s : State) :
    exec .hdrUnpack s =
      if 262 < s.FLEN.toNat then raised s 0x0A#8 0x00#8
      else if s.FLEN.toNat < 7 then raised s 0x04#8 0x00#8
      else if ¬ crcFollows s.FB 0 6 then raised s 0x01#8 0x00#8
      else done (readHeader s) := by
  rw [exec, execHdrUnpack]
  refine guard_congr .rfl fun _ => guard_congr .rfl fun _ => guard_congr not_check_readBlock_succ fun _ => ?_
  rw [sub_readBlock s.FB (p := 3) rfl (by decide)]
  exact congrArg (fun serial => done (unpackHeader _ _ _ serial _ s)) (ofNat_fromLe_three ..)

/-- `DAT.UNPACK` (R168). -/
theorem exec_datUnpack (s : State) :
    exec .datUnpack s =
      if 262 < s.FLEN.toNat then raised s 0x0A#8 0x00#8
      else if s.FLEN.toNat ≠ 7 + s.LEN.toNat then raised s 0x04#8 0x00#8
      else if s.LEN.toNat ≠ 0 ∧ ¬ crcFollows s.FB 7 (s.LEN.toNat - 1) then raised s 0x02#8 0x00#8
      else if s.LEN.toNat ≠ 0 ∧ 252 < s.LEN.toNat - 1 then raised s 0x03#8 0x00#8
      else done (readData s) := by
  rw [exec, execDatUnpack]
  refine guard_congr .rfl fun _ => guard_congr .rfl fun _ => ?_
  by_cases absent : s.LEN = 0#8
  · simp [absent, readData, receivedPayload, unpackData_none]
  · have positive : s.LEN.toNat ≠ 0 := fun h => absent (BitVec.eq_of_toNat_eq h)
    obtain ⟨n, hn⟩ := Nat.exists_eq_add_one_of_ne_zero positive
    rw [if_neg absent, readData, receivedPayload, if_neg positive, hn]
    refine guard_congr ?_ fun _ => guard_congr ?_ fun _ => ?_
    · simpa using not_check_readBlock_succ
    · simp
    · rw [Nat.add_sub_cancel, Memory.readBlock_getD _ _ _ _ _ n.lt_succ_self, Memory.readBlock_succ,
        List.dropLast_concat, show 6 + (n + 1) = 7 + n by omega]

theorem exec_datUnpack_of_checks (s : State) (large : s.FLEN.toNat ≤ 262) (count : s.FLEN.toNat = 7 + s.LEN.toNat)
    (data : s.LEN.toNat ≠ 0 → crcFollows s.FB 7 (s.LEN.toNat - 1)) (short : s.LEN.toNat - 1 ≤ 252) :
    exec .datUnpack s = done (readData s) := by
  rw [exec_datUnpack, if_neg large.not_gt, if_neg (not_not_intro count), if_neg fun bad => bad.2 (data bad.1),
    if_neg fun bad => short.not_gt bad.2]

/-- The checks of `decode` (R169) on a buffer, in order. -/
theorem decodeFrame_readBlock (ok : Config.OkStates) (m : Memory) (n len : Nat) (hlen : len = (Memory.read m 2).toNat) :
    decodeFrame ok (Memory.readBlock m 0 n) =
      if n < 7 then .error (.lengthFieldMismatch, 0x00#8)
      else if ¬ crcFollows m 0 6 then .error (.badHeaderCrc, 0x00#8)
      else if ¬ okState ok (Memory.read m 0) = true then .error (.deviceStatus, Memory.read m 0)
      else if n ≠ 7 + len then .error (.lengthFieldMismatch, 0x00#8)
      else if len ≠ 0 ∧ ¬ crcFollows m 7 (len - 1) then .error (.badDataCrc, 0x00#8)
      else if len ≠ 0 ∧ 252 < len - 1 then .error (.oversize, 0x00#8)
      else .ok ⟨Memory.read m 0, Memory.read m 1, Memory.read m 2,
        Memory.read m 5 ++ Memory.read m 4 ++ Memory.read m 3, receivedPayload m len⟩ := by
  rw [decodeFrame]
  refine guard_congr (by rw [Memory.readBlock_length]) fun full => ?_
  have byte (k : Nat) (hk : k < 7) : (Memory.readBlock m 0 n).getD k 0#8 = Memory.read m k :=
    (Memory.readBlock_getD m 0 n k _ (by omega)).trans (congrArg _ (Nat.zero_add k))
  have header : sub (Memory.readBlock m 0 n) 0 6 = Memory.readBlock m 0 7 := sub_readBlock m rfl (by omega)
  have serial : BitVec.ofNat 24 (fromLe (sub (Memory.readBlock m 0 n) 3 5)) =
      Memory.read m 5 ++ Memory.read m 4 ++ Memory.read m 3 := by
    rw [sub_readBlock m (p := 3) rfl (by omega)]
    exact ofNat_fromLe_three ..
  rw [byte 0 (by decide), byte 1 (by decide), byte 2 (by decide), Memory.readBlock_length, header, serial, ← hlen]
  refine guard_congr not_check_readBlock_succ fun _ => guard_congr (by simp) fun _ => guard_congr .rfl fun count => ?_
  by_cases absent : Memory.read m 2 = 0#8
  · simp [absent, hlen, receivedPayload]
  · have positive : len ≠ 0 := fun h => absent (BitVec.eq_of_toNat_eq (hlen ▸ h))
    obtain ⟨p, rfl⟩ := Nat.exists_eq_add_one_of_ne_zero positive
    have block : sub (Memory.readBlock m 0 n) 7 (6 + (p + 1)) = Memory.readBlock m 7 (p + 1) :=
      sub_readBlock m (by omega) (by omega)
    have body : sub (Memory.readBlock m 0 n) 7 (5 + (p + 1)) = Memory.readBlock m 7 p :=
      sub_readBlock m (by omega) (by omega)
    rw [if_neg absent, receivedPayload, if_neg positive, block, body]
    refine guard_congr ?_ fun _ => guard_congr ?_ fun _ => rfl
    · simpa using not_check_readBlock_succ
    · simp

/-- `FRM.DEC` (R173). -/
theorem exec_frmDec (s : State) (len : Nat) (hlen : len = (Memory.read s.FB 2).toNat) :
    exec .frmDec s =
      if 262 < s.FLEN.toNat then raised s 0x0A#8 0x00#8
      else if s.FLEN.toNat < 7 then raised s 0x04#8 0x00#8
      else if ¬ crcFollows s.FB 0 6 then raised s 0x01#8 0x00#8
      else if ¬ accepted s (Memory.read s.FB 0) then raised s 0x05#8 (Memory.read s.FB 0)
      else if s.FLEN.toNat ≠ 7 + len then raised s 0x04#8 0x00#8
      else if len ≠ 0 ∧ ¬ crcFollows s.FB 7 (len - 1) then raised s 0x02#8 0x00#8
      else if len ≠ 0 ∧ 252 < len - 1 then raised s 0x03#8 0x00#8
      else done (readData (readHeader s)) := by
  rw [exec, execFrmDec]
  refine guard_congr .rfl fun _ => ?_
  dsimp only
  rw [decodeFrame_readBlock s.okStates s.FB _ len hlen]
  simp only [okState_iff]
  split_ifs with short badHeader status count badData large
  case neg =>
    have trailing : (Memory.readBlock s.FB 0 s.FLEN.toNat).getD (6 + len) 0#8 = Memory.read s.FB (0 + (6 + len)) :=
      Memory.readBlock_getD s.FB 0 _ _ _ (by omega)
    have hcrc : (Memory.readBlock s.FB 0 s.FLEN.toNat).getD 6 0#8 = Memory.read s.FB (0 + 6) :=
      Memory.readBlock_getD s.FB 0 _ _ _ (by omega)
    dsimp only
    rw [← hlen, trailing, hcrc, Nat.zero_add, readData, readHeader_LEN, ← hlen]
    rfl
  all_goals rfl

/-! ### Frames whose lengths and checksums agree -/

/-- Every check of `FRM.DEC` but that of the `state` byte passes (R169). -/
structure WellFramed (s : State) : Prop where
  large : s.FLEN.toNat ≤ 262
  header : crcFollows s.FB 0 6
  count : s.FLEN.toNat = 7 + (Memory.read s.FB 2).toNat
  data : (Memory.read s.FB 2).toNat ≠ 0 → crcFollows s.FB 7 ((Memory.read s.FB 2).toNat - 1)
  short : (Memory.read s.FB 2).toNat - 1 ≤ 252

section

variable {s : State} (h : WellFramed s)
include h

theorem WellFramed.exec_frmDec :
    exec .frmDec s =
      if ¬ accepted s (Memory.read s.FB 0) then raised s 0x05#8 (Memory.read s.FB 0)
      else done (readData (readHeader s)) := by
  have count := h.count
  rw [Machine.exec_frmDec s _ rfl, if_neg h.large.not_gt, if_neg (by omega), if_neg (not_not_intro h.header)]
  refine guard_congr .rfl fun _ => ?_
  rw [if_neg (not_not_intro count), if_neg fun bad => bad.2 (h.data bad.1), if_neg fun bad => h.short.not_gt bad.2]

theorem WellFramed.exec_hdrUnpack : exec .hdrUnpack s = done (readHeader s) := by
  have count := h.count
  rw [Machine.exec_hdrUnpack, if_neg h.large.not_gt, if_neg (by omega), if_neg (not_not_intro h.header)]

theorem WellFramed.exec_datUnpack :
    exec .datUnpack (State.succeed (readHeader s)) = done (readData (readHeader s)) :=
  (exec_datUnpack_of_checks (State.succeed (readHeader s)) h.large h.count h.data h.short).trans
    (congrArg Host.Outcome.next (succeed_readData_succeed _))

end

/-- A command that left the report clear did not stop at a check that raises an error. -/
theorem not_raised_of_clear {p : Prop} [Decidable p] {s t : State} {code info : Byte}
    {rest : Host.Outcome State Fault Refusal} (h : (if p then raised s code info else rest) = .next t)
    (clear : t.ERR = 0x00#8) (hcode : code ≠ 0x00#8) : ¬ p ∧ rest = .next t := by
  split at h
  · cases h
    exact absurd clear hcode
  · exact ⟨‹_›, h⟩

/-- What `FRM.DEC` accepts passed all its checks. -/
theorem wellFramed_of_exec_frmDec {s t : State} (h : exec .frmDec s = .next t) (clear : t.ERR = 0x00#8) :
    WellFramed s ∧ done (readData (readHeader s)) = .next t := by
  rw [exec_frmDec s _ rfl] at h
  obtain ⟨large, h⟩ := not_raised_of_clear h clear (by decide)
  obtain ⟨-, h⟩ := not_raised_of_clear h clear (by decide)
  obtain ⟨header, h⟩ := not_raised_of_clear h clear (by decide)
  obtain ⟨-, h⟩ := not_raised_of_clear h clear (by decide)
  obtain ⟨count, h⟩ := not_raised_of_clear h clear (by decide)
  obtain ⟨data, h⟩ := not_raised_of_clear h clear (by decide)
  obtain ⟨short, h⟩ := not_raised_of_clear h clear (by decide)
  refine ⟨⟨by omega, not_not.mp header, not_not.mp count, fun present => ?_, by omega⟩, h⟩
  by_contra bad
  exact data ⟨present, bad⟩

end Sys2Proof.Machine
end

section
/-! The building commands of the frame unit (41_frame.md R165, R167, R170): what they write, byte by byte, and the
built frame received again. -/

namespace Sys2Proof.Machine

open Sys2Proof.Statement

/-! ### The two halves of a built frame -/

theorem dataPresent_iff (s : State) : dataPresent s = true ↔ s.DPRES = 1#1 := beq_iff_eq

theorem payloadTooLong_iff (s : State) : payloadTooLong s = true ↔ s.DPRES = 1#1 ∧ 252 < s.PLEN.toNat := by
  simp [payloadTooLong, dataPresent_iff]

/-- `LEN` by the length rule (R163), as a register sum. -/
theorem lengthField_eq (s : State) : lengthField s = if s.DPRES = 1#1 then s.PLEN + 1#8 else 0x00#8 := by
  simp only [lengthField, dataPresent_iff, BitVec.ofNat_add, BitVec.ofNat_toNat, BitVec.setWidth_eq]

theorem lengthField_toNat {s : State} (small : s.DPRES = 1#1 → s.PLEN.toNat ≤ 252) :
    (lengthField s).toNat = if s.DPRES = 1#1 then s.PLEN.toNat + 1 else 0 := by
  rw [lengthField_eq]
  split
  · have := small ‹_›
    rw [BitVec.toNat_add]
    exact Nat.mod_eq_of_lt (by simp; omega)
  · rfl

theorem crc8_hdr6 (st cm ln : Byte) (se : BitVec 24) :
    crc8 (hdr6 st cm ln se) =
      bitCrc [st, cm, ln, se.extractLsb' 0 8, se.extractLsb' 8 8, se.extractLsb' 16 8] := by
  rw [crc8_eq_bitCrc, hdr6, leBytes_three]; rfl

theorem hdr_eq (st cm ln : Byte) (se : BitVec 24) :
    hdr st cm ln se = [st, cm, ln, se.extractLsb' 0 8, se.extractLsb' 8 8, se.extractLsb' 16 8,
      crc8 (hdr6 st cm ln se)] := by
  rw [hdr, hdr6, leBytes_three]; rfl

/-- `FB` after `HDR.PACK` (R165). -/
theorem read_packHeader_FB (s : State) (k : Nat) :
    Memory.read (packHeader s).FB k =
      if k = 0 then s.STATE else if k = 1 then s.CMD else if k = 2 then s.LEN
      else if k = 3 then s.SERIAL.extractLsb' 0 8 else if k = 4 then s.SERIAL.extractLsb' 8 8
      else if k = 5 then s.SERIAL.extractLsb' 16 8 else if k = 6 then (packHeader s).HCRC
      else Memory.read s.FB k := by
  rw [packHeader_FB, Memory.read_writeBlock, hdr_length, hdr_eq]
  by_cases hk : k < 7
  · rw [if_pos ⟨Nat.zero_le k, by omega⟩]
    interval_cases k <;> rfl
  · obtain ⟨j, rfl⟩ := Nat.exists_eq_add_of_le' (Nat.le_of_not_lt hk)
    simp

/-! ### `DAT.PACK` by the presence flag -/

theorem dataPresent_eq_false_iff (s : State) : dataPresent s = false ↔ s.DPRES ≠ 1#1 := by
  rw [← Bool.not_eq_true, dataPresent_iff]

theorem packData_DCRC (s : State) :
    (packData s).DCRC = if s.DPRES = 1#1 then bitCrc (bytesAt s.PB 0 s.PLEN.toNat) else 0x00#8 := by
  split
  · rw [packData_present ((dataPresent_iff s).mpr ‹_›), crc8_eq_bitCrc, payload, Memory.readBlock_eq_bytesAt]
  · rw [packData_absent ((dataPresent_eq_false_iff s).mpr ‹_›)]

theorem packData_FLEN_toNat (s : State) :
    (packData s).FLEN.toNat = if s.DPRES = 1#1 then 8 + s.PLEN.toNat else 7 := by
  split
  · have := s.PLEN.isLt
    rw [packData_present ((dataPresent_iff s).mpr ‹_›), BitVec.toNat_ofNat]
    exact Nat.mod_eq_of_lt (by omega)
  · rw [packData_absent ((dataPresent_eq_false_iff s).mpr ‹_›)]; rfl

theorem getD_blk_payload (s : State) {k : Nat} (hk : k < s.PLEN.toNat) :
    (blk (payload s)).getD k 0#8 = Memory.read s.PB k := by
  rw [blk, List.getD_append _ _ _ _ (by rwa [payload_length]), payload, Memory.readBlock_getD _ _ _ _ _ hk, Nat.zero_add]

theorem getD_blk_payload_PLEN (s : State) : (blk (payload s)).getD s.PLEN.toNat 0#8 = crc8 (payload s) := by
  rw [blk, List.getD_append_right _ _ _ _ (by rw [payload_length]), payload_length, Nat.sub_self]; rfl

/-- `FB` after `DAT.PACK` (R167). -/
theorem read_packData_FB (s : State) (k : Nat) :
    Memory.read (packData s).FB k =
      if s.DPRES = 1#1 ∧ 7 ≤ k ∧ k < 7 + s.PLEN.toNat then Memory.read s.PB (k - 7)
      else if s.DPRES = 1#1 ∧ k = 7 + s.PLEN.toNat then (packData s).DCRC
      else Memory.read s.FB k := by
  by_cases present : s.DPRES = 1#1
  · rw [packData_present ((dataPresent_iff s).mpr present)]
    simp only [present, true_and, Memory.read_writeBlock, blk_length, payload_length]
    by_cases inside : 7 ≤ k ∧ k < 7 + s.PLEN.toNat
    · rw [if_pos inside, if_pos (by omega), getD_blk_payload s (by omega)]
    by_cases trailing : k = 7 + s.PLEN.toNat
    · rw [if_pos (by omega), if_neg inside, if_pos trailing, trailing, Nat.add_sub_cancel_left, getD_blk_payload_PLEN]
    · rw [if_neg (by omega), if_neg inside, if_neg trailing]
  · rw [packData_absent ((dataPresent_eq_false_iff s).mpr present)]
    simp [present]

theorem packData_eq (s : State) :
    packData s = { s with FB := (packData s).FB, DCRC := (packData s).DCRC, FLEN := (packData s).FLEN } := by
  unfold packData
  split <;> rfl

theorem succeed_packData_succeed (s : State) :
    State.succeed (packData (State.succeed s)) = State.succeed (packData s) := by
  cases present : dataPresent s with
  | false => rw [packData_absent present, packData_absent (s := State.succeed s) present]; rfl
  | true => rw [packData_present present, packData_present (s := State.succeed s) present]; rfl

/-- `DAT.PACK` (R167). -/
theorem exec_datPack (s : State) :
    exec .datPack s = if s.DPRES = 1#1 ∧ 252 < s.PLEN.toNat then raised s 0x03#8 0x00#8 else done (packData s) :=
  guard_congr (payloadTooLong_iff s) fun _ => rfl

theorem exec_datPack_of_small {s : State} (small : s.DPRES = 1#1 → s.PLEN.toNat ≤ 252) :
    exec .datPack s = done (packData s) := by
  rw [exec_datPack, if_neg fun long => long.2.not_ge (small long.1)]

/-! ### The frame `FRM.ENC` builds -/

/-- The request's `state` byte and length field in their registers (R170). -/
def requestHeader (s : State) : State := { s with STATE := Config.STATE_REQ, LEN := lengthField s }

/-- The writes of `FRM.ENC` (R170). -/
def builtFrame (s : State) : State := packData (packHeader (requestHeader s))

/-- `FRM.ENC` (R170). -/
theorem exec_frmEnc (s : State) :
    exec .frmEnc s =
      if s.DPRES = 1#1 ∧ 252 < s.PLEN.toNat then raised s 0x03#8 0x00#8 else done (builtFrame s) :=
  guard_congr (payloadTooLong_iff s) fun _ => rfl

theorem exec_frmEnc_of_small {s : State} (small : s.DPRES = 1#1 → s.PLEN.toNat ≤ 252) :
    exec .frmEnc s = done (builtFrame s) := by
  rw [exec_frmEnc, if_neg fun long => long.2.not_ge (small long.1)]

theorem builtFrame_eq (s : State) :
    builtFrame s = { s with
      STATE := 0xFD#8
      LEN := (builtFrame s).LEN
      FB := (builtFrame s).FB
      HCRC := (builtFrame s).HCRC
      DCRC := (builtFrame s).DCRC
      FLEN := (builtFrame s).FLEN } := by
  unfold builtFrame packData
  split <;> rfl

@[simp] theorem builtFrame_STATE (s : State) : (builtFrame s).STATE = 0xFD#8 := packData_STATE _
@[simp] theorem builtFrame_CMD (s : State) : (builtFrame s).CMD = s.CMD := packData_CMD _
@[simp] theorem builtFrame_SERIAL (s : State) : (builtFrame s).SERIAL = s.SERIAL := packData_SERIAL _
@[simp] theorem builtFrame_okStates (s : State) : (builtFrame s).okStates = s.okStates := packData_okStates _

theorem builtFrame_LEN (s : State) : (builtFrame s).LEN = lengthField s := packData_LEN _

theorem builtFrame_HCRC (s : State) :
    (builtFrame s).HCRC = bitCrc [0xFD#8, s.CMD, (builtFrame s).LEN, s.SERIAL.extractLsb' 0 8,
      s.SERIAL.extractLsb' 8 8, s.SERIAL.extractLsb' 16 8] := by
  rw [builtFrame_LEN]
  exact (packData_HCRC _).trans (crc8_hdr6 ..)

theorem builtFrame_DCRC (s : State) :
    (builtFrame s).DCRC = if s.DPRES = 1#1 then bitCrc (bytesAt s.PB 0 s.PLEN.toNat) else 0x00#8 :=
  packData_DCRC (packHeader (requestHeader s))

theorem builtFrame_LEN_toNat {s : State} (small : s.DPRES = 1#1 → s.PLEN.toNat ≤ 252) :
    (builtFrame s).LEN.toNat = if s.DPRES = 1#1 then s.PLEN.toNat + 1 else 0 := by
  rw [builtFrame_LEN, lengthField_toNat small]

theorem builtFrame_FLEN_toNat {s : State} (small : s.DPRES = 1#1 → s.PLEN.toNat ≤ 252) :
    (builtFrame s).FLEN.toNat = 7 + (builtFrame s).LEN.toNat := by
  have flen : (builtFrame s).FLEN.toNat = if s.DPRES = 1#1 then 8 + s.PLEN.toNat else 7 :=
    packData_FLEN_toNat (packHeader (requestHeader s))
  rw [flen, builtFrame_LEN_toNat small]
  split <;> omega

/-- `FB` after `FRM.ENC` (R170). -/
theorem read_builtFrame_FB (s : State) (k : Nat) :
    Memory.read (builtFrame s).FB k =
      if k = 0 then 0xFD#8 else if k = 1 then s.CMD else if k = 2 then (builtFrame s).LEN
      else if k = 3 then s.SERIAL.extractLsb' 0 8 else if k = 4 then s.SERIAL.extractLsb' 8 8
      else if k = 5 then s.SERIAL.extractLsb' 16 8 else if k = 6 then (builtFrame s).HCRC
      else if s.DPRES = 1#1 ∧ k < 7 + s.PLEN.toNat then Memory.read s.PB (k - 7)
      else if s.DPRES = 1#1 ∧ k = 7 + s.PLEN.toNat then (builtFrame s).DCRC
      else Memory.read s.FB k := by
  have hdata : Memory.read (builtFrame s).FB k =
      if s.DPRES = 1#1 ∧ 7 ≤ k ∧ k < 7 + s.PLEN.toNat then Memory.read s.PB (k - 7)
      else if s.DPRES = 1#1 ∧ k = 7 + s.PLEN.toNat then (builtFrame s).DCRC
      else Memory.read (packHeader (requestHeader s)).FB k :=
    read_packData_FB (packHeader (requestHeader s)) k
  have hcrc : (builtFrame s).HCRC = (packHeader (requestHeader s)).HCRC := packData_HCRC _
  rw [hdata, read_packHeader_FB, hcrc, builtFrame_LEN]
  by_cases hk : k < 7
  · rw [if_neg (by omega), if_neg (by omega)]
    interval_cases k <;> rfl
  · obtain ⟨j, rfl⟩ := Nat.exists_eq_add_of_le' (Nat.le_of_not_lt hk)
    simp [requestHeader]

theorem read_builtFrame_payload {s : State} (present : s.DPRES = 1#1) {k : Nat} (hk : k < s.PLEN.toNat) :
    Memory.read (builtFrame s).FB (7 + k) = Memory.read s.PB k := by
  rw [Nat.add_comm, read_builtFrame_FB]
  simp [present, Nat.add_comm 7, hk]

theorem read_builtFrame_trailer {s : State} (present : s.DPRES = 1#1) :
    Memory.read (builtFrame s).FB (7 + s.PLEN.toNat) = (builtFrame s).DCRC := by
  rw [Nat.add_comm, read_builtFrame_FB]
  simp [present, Nat.add_comm 7]

theorem builtFrame_header_crc (s : State) : crcFollows (builtFrame s).FB 0 6 := by
  have byte := read_builtFrame_FB s
  have bytes : bytesAt (builtFrame s).FB 0 6 = [0xFD#8, s.CMD, (builtFrame s).LEN, s.SERIAL.extractLsb' 0 8,
      s.SERIAL.extractLsb' 8 8, s.SERIAL.extractLsb' 16 8] := by
    simp [bytesAt, List.range_succ, byte]
  have trailer : Memory.read (builtFrame s).FB 6 = (builtFrame s).HCRC := byte 6
  rw [crcFollows, bytes, trailer, builtFrame_HCRC]

theorem builtFrame_data_crc {s : State} (present : s.DPRES = 1#1) :
    crcFollows (builtFrame s).FB 7 s.PLEN.toNat := by
  have bytes : bytesAt (builtFrame s).FB 7 s.PLEN.toNat = bytesAt s.PB 0 s.PLEN.toNat := by
    refine List.map_congr_left fun k hk => ?_
    rw [read_builtFrame_payload present (List.mem_range.mp hk), Nat.zero_add]
  rw [crcFollows, bytes, read_builtFrame_trailer present, builtFrame_DCRC, if_pos present]

/-- The frame `FRM.ENC` builds has lengths and checksums that agree (R172). -/
theorem builtFrame_wellFramed {s : State} (small : s.DPRES = 1#1 → s.PLEN.toNat ≤ 252) :
    WellFramed (State.succeed (builtFrame s)) := by
  have len := builtFrame_LEN_toNat small
  have flen : (State.succeed (builtFrame s)).FLEN.toNat = 7 + (builtFrame s).LEN.toNat := builtFrame_FLEN_toNat small
  have byte : Memory.read (State.succeed (builtFrame s)).FB 2 = (builtFrame s).LEN := read_builtFrame_FB s 2
  by_cases present : s.DPRES = 1#1
  · rw [if_pos present] at len
    have := small present
    refine ⟨by omega, builtFrame_header_crc s, byte ▸ flen, fun _ => ?_, by rw [byte]; omega⟩
    rw [byte, len]
    exact builtFrame_data_crc present
  · rw [if_neg present] at len
    exact ⟨by omega, builtFrame_header_crc s, byte ▸ flen, fun data => absurd (byte ▸ len) data, by rw [byte]; omega⟩

/-- The header registers already hold what is read back into them. -/
theorem readHeader_builtFrame (s : State) :
    readHeader (State.succeed (builtFrame s)) = State.succeed (builtFrame s) := by
  have byte := read_builtFrame_FB s
  have state : Memory.read (builtFrame s).FB 0 = (builtFrame s).STATE := (byte 0).trans (builtFrame_STATE s).symm
  have cmd : Memory.read (builtFrame s).FB 1 = (builtFrame s).CMD := (byte 1).trans (builtFrame_CMD s).symm
  have len : Memory.read (builtFrame s).FB 2 = (builtFrame s).LEN := byte 2
  have serial : Memory.read (builtFrame s).FB 5 ++ Memory.read (builtFrame s).FB 4 ++ Memory.read (builtFrame s).FB 3 =
      (builtFrame s).SERIAL := by
    rw [byte, byte, byte, builtFrame_SERIAL]
    exact append_serial_bytes s.SERIAL
  have hcrc : Memory.read (builtFrame s).FB 6 = (builtFrame s).HCRC := byte 6
  rw [readHeader, State.succeed_FB, state, cmd, len, serial, hcrc]
  rfl

/-! ### What `FRM.DEC` reads back from it (R172) -/

theorem readData_builtFrame_DPRES {s : State} (small : s.DPRES = 1#1 → s.PLEN.toNat ≤ 252) :
    (readData (State.succeed (builtFrame s))).DPRES = s.DPRES := by
  have flag : (readData (State.succeed (builtFrame s))).DPRES = if (builtFrame s).LEN.toNat = 0 then 0#1 else 1#1 :=
    congrArg State.DPRES (readData_eq _)
  rw [flag, builtFrame_LEN_toNat small]
  obtain absent | present := BitVec.eq_zero_or_eq_one s.DPRES
  · simp [absent]
  · simp [present]

theorem readData_builtFrame_PLEN {s : State} (small : s.DPRES = 1#1 → s.PLEN.toNat ≤ 252) :
    (readData (State.succeed (builtFrame s))).PLEN = if s.DPRES = 1#1 then s.PLEN else 0#8 := by
  apply BitVec.eq_of_toNat_eq
  rw [readData_PLEN, State.succeed_LEN, builtFrame_LEN_toNat small]
  split <;> rfl

theorem read_readData_builtFrame_PB {s : State} (small : s.DPRES = 1#1 → s.PLEN.toNat ≤ 252)
    (present : s.DPRES = 1#1) {k : Nat} (hk : k < s.PLEN.toNat) :
    Memory.read (readData (State.succeed (builtFrame s))).PB k = Memory.read s.PB k := by
  rw [read_readData_PB, State.succeed_LEN, builtFrame_LEN_toNat small, if_pos present, if_pos (by omega)]
  exact read_builtFrame_payload present hk

/-- The frame `FRM.ENC` built, received again: the `state` byte alone decides. -/
theorem exec_frmDec_builtFrame {s : State} (small : s.DPRES = 1#1 → s.PLEN.toNat ≤ 252) :
    exec .frmDec (State.succeed (builtFrame s)) =
      if ¬ accepted s 0xFD#8 then raised (State.succeed (builtFrame s)) 0x05#8 0xFD#8
      else done (readData (State.succeed (builtFrame s))) := by
  have marker : Memory.read (State.succeed (builtFrame s)).FB 0 = 0xFD#8 := read_builtFrame_FB s 0
  rw [(builtFrame_wellFramed small).exec_frmDec, readHeader_builtFrame, marker]
  exact guard_congr (by rw [accepted, State.succeed_okStates, builtFrame_okStates]) fun _ => rfl

end Sys2Proof.Machine
end

section
/-! The statements about the frame unit (41_frame.md R165 to R174). -/

namespace Sys2Proof.Machine

open Sys2Proof.Statement

/-- A command that makes the check `p` first meets a statement that makes the same check first. -/
theorem same_check {p q P : Prop} [Decidable p] [Decidable q] {o e rest : Host.Outcome State Fault Refusal}
    (ho : o = if p then e else rest) (checks : q ↔ p) (passes : ¬ q → o = rest → P) : if q then o = e else P := by
  split
  · rw [ho, if_pos (checks.mp ‹_›)]
  · exact passes ‹_› (by rw [ho, if_neg (mt checks.mpr ‹_›)])

/-- Settles O31: the built frame is well framed, its header registers read back as they are, and its data block is the
payload it was built from. -/
theorem encodedFrameDecodesBack : Obligations.EncodedFrameDecodesBack := by
  intro s small
  have built := exec_frmEnc_of_small small
  have received := exec_frmDec_builtFrame small
  by_cases ok : accepted s 0xFD#8
  · rw [if_neg (not_not_intro ok)] at received
    have plen := readData_builtFrame_PLEN small
    refine ⟨_, _, built, received, fun _ => ⟨rfl, ?_, ?_, ?_, ?_, ?_, fun absent => ?_, fun present => ⟨?_, ?_⟩⟩,
      fun no => absurd ok no⟩
    · exact (unpackData_STATE ..).trans (builtFrame_STATE s)
    · exact (unpackData_CMD ..).trans (builtFrame_CMD s)
    · exact (unpackData_SERIAL ..).trans (builtFrame_SERIAL s)
    · exact unpackData_LEN ..
    · exact readData_builtFrame_DPRES small
    · exact plen.trans (if_neg (by simp [absent]))
    · exact plen.trans (if_pos present)
    · exact fun k hk => read_readData_builtFrame_PB small present hk
  · rw [if_pos ok] at received
    exact ⟨_, _, built, received, fun yes => absurd yes ok, fun _ => rfl⟩

/-- Settles O24: the seven bytes of the block `HDR.PACK` writes. -/
theorem hdrPackWritesTheSevenHeaderBytes : Obligations.HdrPackWritesTheSevenHeaderBytes :=
  ⟨rfl, fun s => ⟨_, rfl, rfl, crc8_hdr6 .., read_packHeader_FB s⟩⟩

/-- Settles O25: the checks of `HDR.UNPACK`, with the header read byte by byte. -/
theorem hdrUnpackSplitsACheckedHeader : Obligations.HdrUnpackSplitsACheckedHeader := ⟨rfl, exec_hdrUnpack⟩

/-- Settles O26, by the presence flag and then the size check. -/
theorem datPackAppendsTheDataBlock : Obligations.DatPackAppendsTheDataBlock := by
  refine ⟨rfl, fun s => ?_⟩
  split
  · rename_i absent
    rw [exec_datPack, if_neg (by simp [absent]), packData_absent (by simp [dataPresent, absent])]
    rfl
  rename_i present
  have present : s.DPRES = 1#1 := (BitVec.eq_zero_or_eq_one _).resolve_left present
  refine same_check (exec_datPack s) (by simp [present]) fun _ h => ?_
  refine ⟨_, h, congrArg State.succeed (packData_eq s), ?_, ?_, ?_⟩
  · simpa [present] using packData_DCRC s
  · simpa [present] using packData_FLEN_toNat s
  · simpa [present] using read_packData_FB s

/-- Settles O27, check by check; of a frame without a data block the last two do not speak. -/
theorem datUnpackExtractsACheckedBlock : Obligations.DatUnpackExtractsACheckedBlock := by
  refine ⟨rfl, fun s => same_check (exec_datUnpack s) .rfl fun large h => same_check h .rfl fun count h => ?_⟩
  split
  · rename_i absent
    rw [h, if_neg (by simp [absent]), if_neg (by simp [absent]), readData, receivedPayload, if_pos absent]
    rfl
  rename_i present
  refine same_check h (by simp [present]) fun _ h => same_check h (by simp [present]) fun _ h => ?_
  refine ⟨_, h, ?_, readData_PLEN s, read_readData_PB s⟩
  have eq := congrArg State.succeed (readData_eq s)
  rwa [if_neg present, if_neg present] at eq

/-- Settles O28: the header of `HDR.PACK` and the data block of `DAT.PACK`, side by side in `FB`. -/
theorem frmEncBuildsTheRequestFrame : Obligations.FrmEncBuildsTheRequestFrame := by
  refine ⟨rfl, fun s => same_check (exec_frmEnc s) .rfl fun short h => ⟨_, h, ?_⟩⟩
  have small (present : s.DPRES = 1#1) : s.PLEN.toNat ≤ 252 := not_lt.mp fun long => short ⟨present, long⟩
  exact ⟨congrArg State.succeed (builtFrame_eq s), builtFrame_LEN_toNat small, builtFrame_FLEN_toNat small,
    builtFrame_HCRC s, builtFrame_DCRC s, read_builtFrame_FB s⟩

/-- Settles O29, check by check. -/
theorem frmDecValidatesThenSplitsTheFrame : Obligations.FrmDecValidatesThenSplitsTheFrame := by
  refine ⟨rfl, ?_⟩
  rintro s _ rfl
  refine same_check (exec_frmDec s _ rfl) .rfl fun _ h => same_check h .rfl fun _ h => same_check h .rfl fun _ h =>
    same_check h .rfl fun _ h => same_check h .rfl fun _ h => same_check h .rfl fun _ h =>
    same_check h .rfl fun _ h => ?_
  exact ⟨_, h, congrArg State.succeed (readData_eq (readHeader s)), readData_PLEN (readHeader s),
    read_readData_PB (readHeader s)⟩

/-- Settles O32: a frame `FRM.DEC` accepts passes every check of the two halves, and `FRM.ENC` has the writes of the
two halves. -/
theorem wholeFrameCommandsAreTheirHalves : Obligations.WholeFrameCommandsAreTheirHalves := by
  refine ⟨fun s t h clear => ?_, fun s small => ?_⟩
  · obtain ⟨framed, h⟩ := wellFramed_of_exec_frmDec h clear
    exact (execAll_cons [.datUnpack] framed.exec_hdrUnpack).trans (execAll_cons [] (framed.exec_datUnpack.trans h))
  · have appended : exec .datPack (State.succeed (packHeader (requestHeader s))) = done (builtFrame s) :=
      (exec_datPack_of_small (s := State.succeed (packHeader (requestHeader s))) small).trans
        (congrArg Host.Outcome.next (succeed_packData_succeed _))
    rw [exec_frmEnc_of_small small, ← lengthField_eq]
    exact ((execAll_cons [.datPack] rfl).trans (execAll_cons [] appended)).symm

end Sys2Proof.Machine
end

section
/-! The codec of one element (42_value.md R201 to R206): which containers are canonical, and that encoding and decoding
are inverse to each other. -/

namespace Sys2Proof.Machine

open Sys2Proof.Statement

/-! ### Canonical containers (R201) -/

theorem wireSize_eq (t : ScalarType) : wireSize t = ScalarType.size t := by cases t <;> rfl

theorem ScalarType.bits_pos (t : ScalarType) : 0 < ScalarType.bits t := Nat.mul_pos (by decide) (ScalarType.size_pos t)

theorem ScalarType.bits_le (t : ScalarType) : ScalarType.bits t ≤ 64 := by cases t <;> decide

theorem ScalarType.canonical_iff {t : ScalarType} {v : Word} :
    ScalarType.canonical t v = true ↔ v = ScalarType.extend t (v.setWidth (ScalarType.bits t)) :=
  decide_eq_true_iff

/-- The zero extensions of `w` bits are the unsigned numbers of `w` bits. -/
theorem eq_setWidth_setWidth_iff {w : Nat} (hw : w ≤ 64) {v : Word} :
    v = (v.setWidth w).setWidth 64 ↔ v.toNat < 2 ^ w := by
  rw [← BitVec.toNat_inj, BitVec.toNat_setWidth_of_le hw, BitVec.toNat_setWidth, eq_comm,
    Nat.mod_eq_iff_lt (Nat.two_pow_pos w).ne']

/-- The sign extensions of `w` bits are the two's complement numbers of `w` bits. -/
theorem eq_signExtend_setWidth_iff {w : Nat} (pos : 0 < w) (hw : w ≤ 64) {v : Word} :
    v = (v.setWidth w).signExtend 64 ↔ -2 ^ (w - 1) ≤ v.toInt ∧ v.toInt < 2 ^ (w - 1) := by
  rw [← BitVec.toInt_inj, BitVec.toInt_signExtend_of_le hw]
  constructor
  · intro h
    rw [h]
    exact ⟨BitVec.le_toInt _, BitVec.toInt_lt⟩
  · rintro ⟨low, high⟩
    have double : ((2 ^ w : Nat) : Int) = 2 ^ (w - 1) * 2 := by
      rw [← pow_succ, Nat.sub_add_cancel pos]; norm_cast
    rw [← BitVec.signExtend_eq_setWidth_of_le v hw, BitVec.toInt_signExtend_eq_toInt_bmod_of_le v hw,
      Int.bmod_eq_of_le_mul_two (by omega) (by omega)]

/-- The canonical containers of a type, by its width and whether it is signed. -/
theorem ScalarType.canonical_iff_range {t : ScalarType} {v : Word} :
    ScalarType.canonical t v = true ↔
      if ScalarType.signed t then
        -2 ^ (ScalarType.bits t - 1) ≤ v.toInt ∧ v.toInt < 2 ^ (ScalarType.bits t - 1)
      else v.toNat < 2 ^ ScalarType.bits t := by
  rw [ScalarType.canonical_iff, ScalarType.extend]
  split
  · exact eq_signExtend_setWidth_iff (ScalarType.bits_pos t) (ScalarType.bits_le t)
  · exact eq_setWidth_setWidth_iff (ScalarType.bits_le t)

theorem ScalarType.canonical_iff_fits {t : ScalarType} {v : Word} : ScalarType.canonical t v = true ↔ fits v t := by
  have bound := v.isLt
  rw [ScalarType.canonical_iff_range]
  cases t <;> simp only [ScalarType.signed, ScalarType.bits, ScalarType.size, fits] <;> norm_num <;> omega

/-! ### The container of a bit pattern (R205) -/

/-- A container holds the bits it is the extension of. -/
theorem ScalarType.setWidth_extend (t : ScalarType) (x : BitVec (ScalarType.bits t)) :
    (ScalarType.extend t x).setWidth (ScalarType.bits t) = x := by
  have hw := ScalarType.bits_le t
  unfold ScalarType.extend
  split
  · apply BitVec.eq_of_toInt_eq
    rw [← BitVec.signExtend_eq_setWidth_of_le _ hw, BitVec.toInt_signExtend_eq_toInt_bmod_of_le _ hw,
      BitVec.toInt_signExtend_of_le hw, BitVec.toInt_bmod_cancel]
  · rw [BitVec.setWidth_setWidth_of_le _ hw, BitVec.setWidth_eq]

theorem ScalarType.canonical_extend (t : ScalarType) (x : BitVec (ScalarType.bits t)) :
    ScalarType.canonical t (ScalarType.extend t x) = true := by
  rw [ScalarType.canonical_iff, ScalarType.setWidth_extend]

/-! ### Little-endian bytes as a number (R10) -/

/-- The number whose bytes are the `n` low ones of `v`. -/
theorem fromLe_leBytes {w : Nat} (n : Nat) (v : BitVec w) : fromLe (leBytes n v) = v.toNat % 2 ^ (8 * n) := by
  induction n generalizing v with
  | zero => simp [leBytes, fromLe, Nat.mod_one]
  | succ n ih =>
    rw [leBytes, fromLe, ih, BitVec.toNat_setWidth, BitVec.toNat_ushiftRight, Nat.shiftRight_eq_div_pow,
      Nat.mul_succ, Nat.pow_add, Nat.mul_comm (2 ^ (8 * n)), Nat.mod_mul]

theorem fromLe_injective {a b : List Byte} (len : a.length = b.length) (h : fromLe a = fromLe b) : a = b := by
  induction a generalizing b with
  | nil => exact (List.length_eq_zero_iff.mp len.symm).symm
  | cons x a ih =>
    cases b with
    | nil => cases len
    | cons y b =>
      have hx := x.isLt
      have hy := y.isLt
      rw [fromLe, fromLe] at h
      have head : x = y := BitVec.eq_of_toNat_eq (by omega)
      rw [head, ih (Nat.succ.inj len) (by omega)]

/-! ### The inverse laws (R206) -/

theorem ScalarType.ofNat_fromLe_enc (t : ScalarType) (v : Word) :
    BitVec.ofNat (ScalarType.bits t) (fromLe (ScalarType.enc t v)) = v.setWidth (ScalarType.bits t) := by
  apply BitVec.eq_of_toNat_eq
  rw [ScalarType.enc, fromLe_leBytes, BitVec.toNat_ofNat, BitVec.toNat_setWidth, ScalarType.bits, Nat.mod_mod]

theorem ScalarType.dec_enc {t : ScalarType} {v : Word} (h : ScalarType.canonical t v = true) :
    ScalarType.dec t (ScalarType.enc t v) = v := by
  rw [ScalarType.dec, ScalarType.ofNat_fromLe_enc, ← ScalarType.canonical_iff.mp h]

theorem ScalarType.enc_dec {t : ScalarType} {b : List Byte} (len : b.length = ScalarType.size t) :
    ScalarType.enc t (ScalarType.dec t b) = b := by
  apply fromLe_injective (by rw [ScalarType.enc_length, len])
  have small : fromLe b < 2 ^ ScalarType.bits t := by
    have := fromLe_lt b
    rwa [len] at this
  calc fromLe (ScalarType.enc t (ScalarType.dec t b))
      = ((ScalarType.dec t b).setWidth (ScalarType.bits t)).toNat := by
        rw [ScalarType.enc, fromLe_leBytes, BitVec.toNat_setWidth, ScalarType.bits]
    _ = fromLe b := by rw [ScalarType.dec, ScalarType.setWidth_extend, BitVec.toNat_ofNat, Nat.mod_eq_of_lt small]

theorem ScalarType.canonical_dec (t : ScalarType) (b : List Byte) :
    ScalarType.canonical t (ScalarType.dec t b) = true :=
  ScalarType.canonical_extend t _

/-- Byte `k` of an encoded container (R204). -/
theorem ScalarType.getD_enc {t : ScalarType} (v : Word) {k : Nat} (hk : k < ScalarType.size t) :
    (ScalarType.enc t v).getD k 0#8 = wireByte v k :=
  leBytes_getD _ v k _ hk

end Sys2Proof.Machine
end

section
/-! The value commands (42_value.md R203, R209 to R228): the element count, the elements in `PB` and in `V`, and each
command by the checks it makes. -/

namespace Sys2Proof.Machine

open Sys2Proof.Statement

/-! ### The element count and the value check (R203, R210) -/

theorem elementCount_eq_some_iff {t : ScalarType} {arr : Bool} {blen n : Nat} :
    elementCount t arr blen = some n ↔ counts t arr blen n := by
  rw [counts, wireSize_eq]
  constructor
  · exact elementCount_some
  · rintro ⟨rfl, one⟩
    have whole : n * ScalarType.size t / ScalarType.size t = n := Nat.mul_div_cancel n (ScalarType.size_pos t)
    rw [elementCount, whole, if_neg (by simp), if_neg fun scalar => scalar.2 (one scalar.1)]

theorem count_le {t : ScalarType} {arr : Bool} {blen n : Nat} (count : counts t arr blen n) : n ≤ blen := by
  rw [count.1, wireSize_eq]
  exact Nat.le_mul_of_pos_right n (ScalarType.size_pos t)

theorem allCanonical_min_iff {t : ScalarType} {v : Cells 64} {n : Nat} :
    allCanonical t v (min n 252) = true ↔ ∀ i, i < n → i < 252 → fits (Cells.read v i) t := by
  simp only [allCanonical_iff, ScalarType.canonical_iff_fits, lt_min_iff, and_imp]

/-! ### The elements in `PB` and in `V` (R209) -/

/-- The bytes of element `i` after the loop of R210; the elements stored after it lie above it. -/
theorem readBlock_storeElements (t : ScalarType) (v : Cells 64) (off : Nat) (pb : Memory) {n i : Nat} (hi : i < n) :
    Memory.readBlock (storeElements t v off pb n) (off + i * ScalarType.size t) (ScalarType.size t) =
      ScalarType.enc t (Cells.read v i) := by
  induction n with
  | zero => omega
  | succ n ih =>
    rw [storeElements]
    obtain before | rfl : i < n ∨ i = n := by omega
    · have below : (i + 1) * ScalarType.size t ≤ n * ScalarType.size t := Nat.mul_le_mul_right _ before
      rw [Nat.succ_mul] at below
      rw [Memory.readBlock_writeBlock_disjoint _ _ _ _ _ (by omega), ih before]
    · have whole := Memory.readBlock_writeBlock (storeElements t v off pb i) (off + i * ScalarType.size t)
        (ScalarType.enc t (Cells.read v i))
      rwa [ScalarType.enc_length] at whole

theorem read_storeElements_element (t : ScalarType) (v : Cells 64) (off : Nat) (pb : Memory) {n i k : Nat}
    (hi : i < n) (hk : k < ScalarType.size t) :
    Memory.read (storeElements t v off pb n) (off + i * ScalarType.size t + k) = wireByte (Cells.read v i) k := by
  rw [← Memory.readBlock_getD _ _ _ k 0#8 hk, readBlock_storeElements t v off pb hi, ScalarType.getD_enc _ hk]

/-- Byte `k` of the container decoded from a buffer (R205). -/
theorem wireByte_dec_readBlock (t : ScalarType) (m : Memory) (a : Nat) {k : Nat} (hk : k < ScalarType.size t) :
    wireByte (ScalarType.dec t (Memory.readBlock m a (ScalarType.size t))) k = Memory.read m (a + k) := by
  rw [← ScalarType.getD_enc _ hk, ScalarType.enc_dec (Memory.readBlock_length ..), Memory.readBlock_getD _ _ _ _ _ hk]

/-- Loading the elements just stored gives back canonical containers. -/
theorem read_loadElements_storeElements {t : ScalarType} {v : Cells 64} {off n : Nat} {pb : Memory}
    (canonical : ∀ i, i < n → ScalarType.canonical t (Cells.read v i) = true) (i : Nat) :
    Cells.read (loadElements t (storeElements t v off pb n) off v n) i = Cells.read v i := by
  rw [read_loadElements]
  split
  · rename_i hi
    rw [readBlock_storeElements t v off pb hi, ScalarType.dec_enc (canonical i hi)]
  · rfl

/-! ### The commands by their checks -/

theorem valEnc_of_count {t : ScalarType} {arr : Bool} {s : State} {n : Nat} (count : counts t arr s.BLEN.toNat n)
    (given : s.VCNT.toNat = n) :
    valEnc t arr s =
      if s.WEN = 0#1 then raised s 0x07#8 0x00#8
      else if !allCanonical t s.V (min n 252) then raised s 0x09#8 0x00#8
      else if 252 < s.OFF.toNat + s.BLEN.toNat then raised s 0x0A#8 0x00#8
      else done { s with PB := storeElements t s.V s.OFF.toNat s.PB n } := by
  rw [valEnc, elementCount_eq_some_iff.mpr count]
  exact if_neg (not_not_intro given)

theorem valEnc_of_no_count {t : ScalarType} {arr : Bool} {s : State}
    (uncounted : ¬ ∃ n, counts t arr s.BLEN.toNat n ∧ s.VCNT.toNat = n) : valEnc t arr s = raised s 0x06#8 0x00#8 := by
  rw [valEnc]
  split
  · rfl
  · rename_i n count
    exact if_pos fun given => uncounted ⟨n, elementCount_eq_some_iff.mp count, given⟩

theorem valDec_of_count {t : ScalarType} {arr : Bool} {s : State} {n : Nat} (count : counts t arr s.BLEN.toNat n) :
    valDec t arr s =
      if 252 < s.PLEN.toNat ∨ s.PLEN.toNat < s.OFF.toNat + s.BLEN.toNat then raised s 0x0A#8 0x00#8
      else done { s with V := loadElements t s.PB s.OFF.toNat s.V n, VCNT := BitVec.ofNat 8 n } := by
  rw [valDec, elementCount_eq_some_iff.mpr count]
  rfl

theorem valDec_of_inside {t : ScalarType} {arr : Bool} {s : State} {n : Nat} (count : counts t arr s.BLEN.toNat n)
    (size : s.PLEN.toNat ≤ 252) (inside : s.OFF.toNat + s.BLEN.toNat ≤ s.PLEN.toNat) :
    valDec t arr s = done { s with V := loadElements t s.PB s.OFF.toNat s.V n, VCNT := BitVec.ofNat 8 n } := by
  rw [valDec_of_count count, if_neg (by omega)]

theorem valDec_of_no_count {t : ScalarType} {arr : Bool} {s : State} (uncounted : ¬ ∃ n, counts t arr s.BLEN.toNat n) :
    valDec t arr s = raised s 0x06#8 0x00#8 := by
  rw [valDec]
  split
  · rfl
  · exact absurd ⟨_, elementCount_eq_some_iff.mp ‹_›⟩ uncounted

theorem Err.code_ne_zero (e : Err) : Err.code e ≠ 0x00#8 := by cases e <;> decide

theorem not_fail_of_clear {e : Err} {info : Byte} {s u : State} (h : fail e info s = .next u)
    (clear : u.ERR = 0x00#8) : False := by
  cases h
  exact Err.code_ne_zero e clear

/-- A `VAL.ENC` without error passed every check of R210. -/
theorem valEnc_succeeded {t : ScalarType} {arr : Bool} {s u : State} (h : valEnc t arr s = .next u)
    (clear : u.ERR = 0x00#8) :
    ∃ n, counts t arr s.BLEN.toNat n ∧ s.VCNT.toNat = n ∧ allCanonical t s.V (min n 252) = true ∧
      s.OFF.toNat + s.BLEN.toNat ≤ 252 ∧
      u = State.succeed { s with PB := storeElements t s.V s.OFF.toNat s.PB n } := by
  obtain he | ⟨n, count, given, ⟨-, he⟩ | ⟨-, -, he⟩ | ⟨-, -, -, he⟩ | ⟨-, canonical, inside, he⟩⟩ :=
    valEnc_cases t arr s <;> rw [he] at h
  case inr.inr.inr.inr => cases h; exact ⟨n, elementCount_eq_some_iff.mp count, given, canonical, inside, rfl⟩
  all_goals exact (not_fail_of_clear h clear).elim

/-! ### The reserved tags (R92, R105) -/

/-- Every reserved type field is one of the four rows of its operation code. -/
theorem reserved_tag_rows : ∀ t : BitVec 7, 8 ≤ t.toNat →
    t &&& 0x78#7 = 0x08#7 ∨ t &&& 0x70#7 = 0x10#7 ∨ t &&& 0x60#7 = 0x20#7 ∨ t &&& 0x40#7 = 0x40#7 := by decide

/-- A word whose type field is of a row of the value unit decodes to what the row builds. -/
theorem decode_of_tag_row {k : Nat} {op : Byte} {p m : BitVec 7} {build : CmdWord → Instr} {w : CmdWord}
    (row : rows[k]? = some ⟨cmdWord op (tagByte false p), cmdWord 0xFF#8 (tagByte false m), build⟩)
    (hop : CmdWord.op w = op) (ht : CmdWord.t w &&& m = p) : decode w = .ok (build w) :=
  decode_ok_iff.mpr ⟨_, List.mem_of_getElem? row, hits_tag_iff.mpr ⟨hop, ht⟩, rfl⟩

theorem exists_decode_reservedTag {w : CmdWord} (hop : CmdWord.op w = 0x30#8 ∨ CmdWord.op w = 0x31#8)
    (ht : 8 ≤ (CmdWord.t w).toNat) : ∃ i, decode w = .ok i ∧ ReservedTag i := by
  obtain enc | dec := hop
  · obtain h | h | h | h := reserved_tag_rows _ ht
    · exact ⟨_, decode_of_tag_row (k := 29) rfl enc h, .enc08 ..⟩
    · exact ⟨_, decode_of_tag_row (k := 30) rfl enc h, .enc10 ..⟩
    · exact ⟨_, decode_of_tag_row (k := 31) rfl enc h, .enc20 ..⟩
    · exact ⟨_, decode_of_tag_row (k := 32) rfl enc h, .enc40 ..⟩
  · obtain h | h | h | h := reserved_tag_rows _ ht
    · exact ⟨_, decode_of_tag_row (k := 33) rfl dec h, .dec08 ..⟩
    · exact ⟨_, decode_of_tag_row (k := 34) rfl dec h, .dec10 ..⟩
    · exact ⟨_, decode_of_tag_row (k := 35) rfl dec h, .dec20 ..⟩
    · exact ⟨_, decode_of_tag_row (k := 36) rfl dec h, .dec40 ..⟩

end Sys2Proof.Machine
end

section
/-! The statements about the value unit (42_value.md R201 to R228). -/

namespace Sys2Proof.Machine

open Sys2Proof.Statement

/-- Settles O37: what the loop of R210 stored of canonical containers, the loop of R211 loads back (R206). -/
theorem encodedValuesDecodeBack : Obligations.EncodedValuesDecodeBack := by
  intro t arr s u encoded clear p covers size
  rw [exec_encOf] at encoded
  obtain ⟨_, count, rfl, canonical, inside, rfl⟩ := valEnc_succeeded encoded clear
  have all : ∀ i, i < s.VCNT.toNat → ScalarType.canonical t (Cells.read s.V i) = true := by
    have few := count_le count
    rwa [Nat.min_eq_left (by omega), allCanonical_iff] at canonical
  exact ⟨_, (exec_decOf ..).trans (valDec_of_inside count size covers), rfl,
    (BitVec.ofNat_toNat ..).trans (BitVec.setWidth_eq _), read_loadElements_storeElements all⟩

/-- Settles O33, by the width and the sign of the type. -/
theorem canonicalContainersAreTheTabulatedRanges : Obligations.CanonicalContainersAreTheTabulatedRanges :=
  fun _ _ => ScalarType.canonical_iff_fits

/-- Settles O34, with the bytes of an element read as a number (R10). -/
theorem scalarCodecInverseLaws : Obligations.ScalarCodecInverseLaws := by
  refine fun t => ⟨fun v h => ScalarType.dec_enc (ScalarType.canonical_iff_fits.mpr h), fun b len => ⟨?_, ?_⟩⟩
  · exact ScalarType.enc_dec (len.trans (wireSize_eq t))
  · exact ScalarType.canonical_iff_fits.mp (ScalarType.canonical_dec t b)

/-- Settles O35, check by check, and on success element by element. -/
theorem valEncWritesTheElementBytes : Obligations.ValEncWritesTheElementBytes := by
  refine ⟨fun t arr => by cases t <;> cases arr <;> rfl, fun t arr s => ?_⟩
  rw [exec_encOf, wireSize_eq]
  refine ⟨valEnc_of_no_count, fun n count given => ?_⟩
  rw [valEnc_of_count count given, ← allCanonical_min_iff]
  refine ⟨fun locked => if_pos locked, fun wen bad => ?_, fun wen ok outside => ?_, fun wen ok inside => ?_⟩
  all_goals rw [if_neg (by simp [wen])]
  · exact if_pos (by simpa using bad)
  · rw [if_neg (by simp [ok]), if_pos outside]
  · rw [if_neg (by simp [ok]), if_neg inside.not_gt]
    refine ⟨_, rfl, rfl, fun i k => read_storeElements_element t _ _ _, fun a out => ?_⟩
    rw [count.1, wireSize_eq] at out
    exact (read_storeElements ..).trans (if_neg (by omega))

/-- Settles O36, check by check, and on success element by element. -/
theorem valDecReadsTheElementBytes : Obligations.ValDecReadsTheElementBytes := by
  refine ⟨fun t arr => by cases t <;> cases arr <;> rfl, fun t arr s => ?_⟩
  rw [exec_decOf, wireSize_eq]
  refine ⟨valDec_of_no_count, fun n count => ?_⟩
  refine ⟨fun outside => (valDec_of_count count).trans (if_pos outside), fun size inside => ?_⟩
  refine ⟨_, valDec_of_inside count size inside, rfl, ?_, fun i hi => ?_, fun i hi => ?_⟩
  · have few := count_le count
    exact Nat.mod_eq_of_lt (by omega)
  · have container : Cells.read (loadElements t s.PB s.OFF.toNat s.V n) i = ScalarType.dec t
        (Memory.readBlock s.PB (s.OFF.toNat + i * ScalarType.size t) (ScalarType.size t)) :=
      (read_loadElements ..).trans (if_pos hi)
    rw [State.succeed_V, container]
    exact ⟨ScalarType.canonical_iff_fits.mp (ScalarType.canonical_dec ..), fun k => wireByte_dec_readBlock t _ _⟩
  · exact (read_loadElements ..).trans (if_neg (by omega))

/-- Settles O38: every reserved type field is of one of the four rows of its operation code. -/
theorem reservedTagsRaiseBadTypeTag : Obligations.ReservedTagsRaiseBadTypeTag := by
  refine ⟨fun w hop ht => ?_, fun arr t s i hi => ?_⟩
  · obtain ⟨i, hi, reserved⟩ := exists_decode_reservedTag hop ht
    exact ⟨i, hi, exec_reserved reserved⟩
  · have reserved : List.Forall ReservedTag [.valEncRsvd08 arr t, .valEncRsvd10 arr t, .valEncRsvd20 arr t,
        .valEncRsvd40 arr t, .valDecRsvd08 arr t, .valDecRsvd10 arr t, .valDecRsvd20 arr t, .valDecRsvd40 arr t] :=
      ⟨.enc08 .., .enc10 .., .enc20 .., .enc40 .., .dec08 .., .dec10 .., .dec20 .., .dec40 ..⟩
    exact exec_reserved (List.forall_iff_forall_mem.mp reserved i hi) s

end Sys2Proof.Machine
end

section
/-! The statements about the system commands and the host's accesses (43_system.md R250 to R257): what `NOP` alone does,
what `RST` leaves, the writes of the registers, the places a host access does not reach, and that no run stops. -/

namespace Sys2Proof.Machine

open Sys2Proof.Statement

/-! ### The commands that act as `NOP` -/

/-- The reset state with `ACC` and `OFF` at 1: at it every command but `NOP`, `CRC.UPD` and `CRC.CMP` ends with an
error or changes a register. -/
def nopProbe : State := { State.reset with ACC := 0x01#8, OFF := 1#9 }

/-- From `ACC` = 0 the byte has to be 0, and then the entry at 0x01 moves `ACC` = 1. -/
theorem exists_crcStep_ne (b : Byte) : ∃ acc, crcStep acc b ≠ acc := by
  by_cases hb : b = 0x00#8
  · exact ⟨0x01#8, by rw [hb]; decide⟩
  · refine ⟨0x00#8, fun fixed => hb (eq_zero_of_tbl_eq_zero b ?_)⟩
    rwa [crcStep, BitVec.zero_xor] at fixed

theorem not_crcUpd_as_nop (b : Byte) : ¬ ∀ s, exec (.crcUpd b) s = exec .nop s := fun same => by
  obtain ⟨acc, moved⟩ := exists_crcStep_ne b
  exact moved (congrArg State.ACC (Host.Outcome.next.inj (same { State.reset with ACC := acc })))

theorem not_crcCmp_as_nop (b : Byte) : ¬ ∀ s, exec (.crcCmp b) s = exec .nop s := fun same => by
  have unset : cmpFlag b b = 0#1 :=
    congrArg State.EQ (Host.Outcome.next.inj (same { State.reset with ACC := b }))
  simp [cmpFlag] at unset

/-- A command that does in every state what `NOP` does is `NOP`. -/
theorem eq_nop_of_exec_eq {i : Instr} (same : ∀ s, exec i s = exec .nop s) : i = .nop := by
  have atProbe : exec i nopProbe = .next nopProbe := same nopProbe
  obtain ⟨e, info, -, reported⟩ | ⟨w, writes, unchanged⟩ := exec_next atProbe
  · exact absurd (congrArg State.ERR reported).symm (Err.code_ne_zero e)
  have ACC_kept : w.ACC = 0x01#8 := (congrArg State.ACC unchanged).symm
  have FLEN_kept : w.FLEN = 0#9 := (congrArg State.FLEN unchanged).symm
  cases writes with
  | nop => rfl
  | rst | crcClr => exact absurd ACC_kept (by decide)
  | crcUpd b => exact (not_crcUpd_as_nop b same).elim
  | crcCmp b => exact (not_crcCmp_as_nop b same).elim
  | crcCalc b inside | crcCheck b inside => cases b <;> exact absurd inside (by decide)
  | hdrPack | datPack | frmEnc => exact absurd FLEN_kept (by decide)
  | hdrUnpack _ _ full => exact absurd full (by decide)
  | datUnpackAbsent _ len | datUnpackPresent _ _ len => exact absurd len (by decide)
  | frmDec hf _ decoded => subst hf; cases decoded
  | valEnc _ _ _ _ writable => exact absurd rfl writable
  | valDec _ _ _ _ fits => exact absurd ((Nat.le_add_right ..).trans fits) (by decide)

/-- Settles O13: at `nopProbe`, or for the two streaming commands at an accumulator of their own, every other command
shows. -/
theorem nopOnlyClearsTheReport : Obligations.NopOnlyClearsTheReport := by
  refine ⟨rfl, fun _ => rfl, fun w i decoded same => ?_⟩
  rw [← (encodeGivesBackEveryDecodedWord w i decoded).2, eq_nop_of_exec_eq same]
  rfl

/-! ### Reset -/

theorem getD_regValues_of_zero {s : State} (h : regValues s = List.replicate 19 0#64) (k : Nat) :
    (regValues s).getD k 0#64 = 0#64 := by
  rw [h, List.getD_eq_getElem?_getD, List.getElem?_getD_replicate_default_eq]

theorem regValues_clear (s : State) : regValues (State.clear s) = List.replicate 19 0#64 := rfl

/-- A cleared report is what `State.clear` leaves already. -/
theorem exec_rst (s : State) : exec .rst s = .next (State.clear s) := rfl

/-- Settles O14, with the registers that `State.clear` leaves, and the table read as the register steps. -/
theorem rstZeroesTheBlock : Obligations.RstZeroesTheBlock :=
  ⟨rfl, fun s => ⟨State.clear s, exec_rst s, getD_regValues_of_zero (regValues_clear s), fun _ => rfl, fun _ => rfl,
    fun _ => rfl, fun _ hk => hostRead_tbl _ hk, rfl, rfl, rfl⟩⟩

/-! ### Host writes that issue no command -/

theorem step_access {s : State} {a : Access} {rest : List Access} (hp : s.pending = a :: rest)
    (silent : commandOf a = none) : step s = .next (serveAccess a { s with pending := rest }) := by
  simp only [step, hp, serve, silent]

theorem step_writeReg {s : State} {k : Nat} {x : Word} {rest : List Access} (hp : s.pending = .write .reg k x :: rest)
    (hk : k ≠ 0x00) : step s = .next (State.writeReg { s with pending := rest } k x) := by
  refine step_access hp ?_
  cases k with
  | zero => contradiction
  | succ k => rfl

/-- What a register of `b` bits shows of a value written to it (R36, R253). -/
theorem setWidth_setWidth_word (b : Nat) (x : Word) :
    (x.setWidth b).setWidth 64 = BitVec.ofNat 64 (x.toNat % 2 ^ b) := by
  rw [← BitVec.toNat_inj, BitVec.toNat_setWidth, BitVec.toNat_setWidth, BitVec.toNat_ofNat]

/-- A host write to a writable register replaces its entry in the map of R35. -/
theorem regValues_writeReg {k b : Nat} (hk : (k, b) ∈ writable) (s : State) (x : Word) :
    regValues (State.writeReg s k x) = (regValues s).set k (BitVec.ofNat 64 (x.toNat % 2 ^ b)) := by
  rw [← setWidth_setWidth_word]
  simp only [writable, List.mem_cons, Prod.mk.injEq, List.not_mem_nil, or_false] at hk
  obtain ⟨rfl, rfl⟩ | ⟨rfl, rfl⟩ | ⟨rfl, rfl⟩ | ⟨rfl, rfl⟩ | ⟨rfl, rfl⟩ | ⟨rfl, rfl⟩ | ⟨rfl, rfl⟩ | ⟨rfl, rfl⟩ |
    ⟨rfl, rfl⟩ | ⟨rfl, rfl⟩ | ⟨rfl, rfl⟩ | ⟨rfl, rfl⟩ := hk <;> rfl

/-- `OPC` is none of the writable registers, and all of them are in the map. -/
theorem number_of_writable : ∀ r ∈ writable, r.1 ≠ 0x00 ∧ r.1 < 19 := by decide

/-- Settles O9, with what `step` does at a register write, and the register map read as a list. -/
theorem hostWriteOfARegisterChangesItAlone : Obligations.HostWriteOfARegisterChangesItAlone := by
  refine ⟨fun s k b x rest hk hp => ?_, fun _ _ _ _ => step_command⟩
  obtain ⟨notOPC, inMap⟩ := number_of_writable _ hk
  obtain ⟨hV, hFB, hPB⟩ := writeReg_spaces { s with pending := rest } k x
  obtain ⟨-, -, hhost⟩ := writeReg_report { s with pending := rest } k x
  have regs := regValues_writeReg hk { s with pending := rest } x
  refine ⟨_, step_writeReg hp notOPC, ?_, fun j hj => ?_, hV, hFB, hPB, hhost⟩
  · rw [regs, List.getElem?_set_self inMap]
  · rw [regs, List.getElem?_set_ne hj.symm]; rfl

/-! ### Read-only places and accesses outside the spaces (R256, R257) -/

theorem writeReg_of_not_writable {k : Nat} (hk : k ∈ [0x01, 0x02, 0x03, 0x04, 0x09, 0x0A] ∨ 0x12 < k) (s : State)
    (x : Word) : State.writeReg s k x = s := by
  unfold State.writeReg
  split
  case h_13 => rfl
  all_goals exact absurd hk (by decide)

theorem readReg_of_outside {k : Nat} (hk : 0x12 < k) (s : State) : State.readReg s k = 0#64 := by
  rw [readReg_eq_getD, List.getD_eq_default _ _ hk]

/-- Settles O11, place by place: the write is ignored, the read answers 0. -/
theorem readOnlyAndOutsideAccessesChangeNothing : Obligations.ReadOnlyAndOutsideAccessesChangeNothing := by
  intro s sp k x rest
  refine ⟨fun hp place => ?_, fun hp place => ?_⟩
  · obtain ⟨rfl, hk⟩ | ⟨rfl, hk⟩ | ⟨rfl, hk⟩ | ⟨rfl, hk⟩ | rfl := place
    · rw [step_writeReg hp (by rintro rfl; exact absurd hk (by decide)), writeReg_of_not_writable hk]
    all_goals rw [step_write hp (by decide), hostWrite]
    all_goals rw [if_neg (Nat.not_lt.mpr hk)]
  · rw [step_read hp]
    obtain ⟨rfl, hk⟩ | ⟨rfl, hk⟩ | ⟨rfl, hk⟩ | ⟨rfl, hk⟩ | ⟨rfl, hk⟩ := place
    · rw [hostRead, readReg_of_outside hk]
    all_goals rw [hostRead, if_neg (Nat.not_lt.mpr hk)]

/-! ### No run stops -/

theorem Ends.exists_next {i : Instr} {s : State} {o : Host.Outcome State Fault Refusal} (h : Ends i s o) :
    ∃ t, o = .next t := by
  cases h <;> exact ⟨_, rfl⟩

/-- Whatever the next access is, a step answers a next state. -/
theorem exists_step_next (s : State) : ∃ t, step s = .next t := by
  obtain ⟨-, hstep⟩ | ⟨a, rest, -, ⟨w, i, -, -, hstep⟩ | ⟨w, why, -, -, hstep⟩ | ⟨-, hstep⟩⟩ := step_cases s
  · exact ⟨_, hstep⟩
  · rw [hstep]; exact (exec_ends i _).exists_next
  · exact ⟨_, hstep⟩
  · exact ⟨_, hstep⟩

/-- Settles O45, by induction on the number of steps. -/
theorem noRunEverStops : Obligations.NoRunEverStops := by
  intro s k
  induction k generalizing s with
  | zero => exact ⟨s, rfl⟩
  | succ k ih =>
    obtain ⟨t, ht⟩ := exists_step_next s
    have hstep : Sys2Proof.core.step s = .next t := ht
    simpa only [Host.Core.run, hstep] using ih t

end Sys2Proof.Machine
end

section
/-! The statements about the report (60_exceptions.md R270 to R282): an error writes `ERR` and `EINFO` alone, a word
of no row raises `IllegalOp`, each command raises its listed codes, and one check of `FRM.DEC` raises `DeviceStatus`. -/

namespace Sys2Proof.Machine

open Sys2Proof.Statement

/-! ### The two ends of a command word (R272) -/

theorem exec_raised_or_succeeded {i : Instr} {s t : State} (h : exec i s = .next t) :
    (∃ e info, t = State.raise e info s) ∨ ∃ w, t = State.succeed w := by
  obtain ⟨e, info, -, ht⟩ | ⟨w, -, ht⟩ := exec_next h
  · exact .inl ⟨e, info, ht⟩
  · exact .inr ⟨w, ht⟩

/-- A legal word ends as its command does, an illegal one with `IllegalOp`. -/
theorem runWord_raised_or_succeeded {w : CmdWord} {s t : State} (h : runWord w s = .next t) :
    (∃ e info, t = State.raise e info s) ∨ ∃ u, t = State.succeed u := by
  unfold runWord at h
  split at h
  · exact exec_raised_or_succeeded h
  · cases h
    exact .inl ⟨_, _, rfl⟩

/-- Settles O39: an error is `State.raise` on the old state and its code is not 0, a success is `State.succeed`. -/
theorem aFaultingCommandWritesOnlyTheReport : Obligations.AFaultingCommandWritesOnlyTheReport := by
  intro s t ran
  have ended : (∃ e info, t = State.raise e info s) ∨ ∃ u, t = State.succeed u := by
    obtain ⟨i, h⟩ | ⟨w, h⟩ := ran
    · exact exec_raised_or_succeeded h
    · exact runWord_raised_or_succeeded h
  obtain ⟨e, info, rfl⟩ | ⟨u, rfl⟩ := ended
  · exact ⟨fun _ => rfl, fun clear => absurd clear (Err.code_ne_zero e)⟩
  · exact ⟨fun err => absurd rfl err, fun _ => rfl⟩

/-! ### The illegal word (R282) -/

theorem step_illegalWord {s : State} {x : Word} {rest : List Access} {why : Illegal}
    (hp : s.pending = .write .reg 0x00 x :: rest) (illegal : decode (x.setWidth 16) = .error why) :
    step s = fail .illegalOp (CmdWord.op (x.setWidth 16)) { s with pending := rest } := by
  simp only [step, hp, serve, commandOf, runWord, illegal, illegalWord]

/-- Settles O7: a word of no row of the table does not decode (R91). -/
theorem wordOfNoRowRaisesIllegalOp : Obligations.WordOfNoRowRaisesIllegalOp := by
  intro s x rest hp miss
  obtain ⟨-, -, illegal⟩ := decodingFollowsTheOneMatchingRow (x.setWidth 16)
  obtain ⟨why, hw⟩ := illegal miss
  exact step_illegalWord hp hw

/-! ### The codes an outcome can report -/

/-- The outcome's next state has a clear report, or one of the codes listed. -/
def ReportsOnly (codes : List Byte) (o : Host.Outcome State Fault Refusal) : Prop :=
  ∀ t, o = .next t → t.ERR = 0x00#8 ∨ t.ERR ∈ codes

theorem reportsOnly_of_clear {codes : List Byte} {t : State} (clear : t.ERR = 0x00#8) :
    ReportsOnly codes (.next t) := by
  intro u h
  cases h
  exact .inl clear

theorem reportsOnly_done {codes : List Byte} {s : State} : ReportsOnly codes (done s) := reportsOnly_of_clear rfl

theorem reportsOnly_raised {codes : List Byte} {s : State} {code info : Byte} (listed : code ∈ codes) :
    ReportsOnly codes (raised s code info) := by
  intro t h
  cases h
  exact .inr listed

/-- One check: what follows it is reached only when it passed. -/
theorem reportsOnly_guard {codes : List Byte} {p : Prop} [Decidable p] {s : State} {code info : Byte}
    {rest : Host.Outcome State Fault Refusal} (listed : p → code ∈ codes) (hrest : ¬ p → ReportsOnly codes rest) :
    ReportsOnly codes (if p then raised s code info else rest) := by
  split
  · exact reportsOnly_raised (listed ‹_›)
  · exact hrest ‹_›

/-! ### The codes of each command (R271) -/

theorem crcCalc_reportsOnly (b : Buf) (s : State) : ReportsOnly [0x0A#8] (exec (.crcCalc b) s) := by
  rw [exec_crcCalc]
  exact reportsOnly_guard (by simp) fun _ => reportsOnly_of_clear rfl

theorem crcCheck_reportsOnly (b : Buf) (s : State) : ReportsOnly [0x0A#8] (exec (.crcCheck b) s) := by
  rw [exec_crcCheck]
  refine reportsOnly_guard (by simp) fun _ => ?_
  split <;> exact reportsOnly_of_clear rfl

theorem hdrUnpack_reportsOnly (s : State) : ReportsOnly [0x01#8, 0x04#8, 0x0A#8] (exec .hdrUnpack s) := by
  rw [exec_hdrUnpack]
  exact reportsOnly_guard (by simp) fun _ => reportsOnly_guard (by simp) fun _ => reportsOnly_guard (by simp) fun _ =>
    reportsOnly_done

theorem datPack_reportsOnly (s : State) : ReportsOnly [0x03#8] (exec .datPack s) := by
  rw [exec_datPack]
  exact reportsOnly_guard (by simp) fun _ => reportsOnly_done

theorem datUnpack_reportsOnly (s : State) :
    ReportsOnly [0x02#8, 0x03#8, 0x04#8, 0x0A#8] (exec .datUnpack s) := by
  rw [exec_datUnpack]
  exact reportsOnly_guard (by simp) fun _ => reportsOnly_guard (by simp) fun _ => reportsOnly_guard (by simp) fun _ =>
    reportsOnly_guard (by simp) fun _ => reportsOnly_done

theorem frmEnc_reportsOnly (s : State) : ReportsOnly [0x03#8] (exec .frmEnc s) := by
  rw [exec_frmEnc]
  exact reportsOnly_guard (by simp) fun _ => reportsOnly_done

/-- The buffer holds a good header whose `state` byte is not accepted (R276). -/
def BadStatus (s : State) : Prop :=
  7 ≤ s.FLEN.toNat ∧ s.FLEN.toNat ≤ 262 ∧ crcFollows s.FB 0 6 ∧ ¬ accepted s (Memory.read s.FB 0)

/-- `FRM.DEC` reports `DeviceStatus` only at its check of the `state` byte, after the checks of the header (R173). -/
theorem frmDec_reportsOnly {codes : List Byte} {s : State}
    (others : ∀ code ∈ [0x01#8, 0x02#8, 0x03#8, 0x04#8, 0x0A#8], code ∈ codes)
    (status : BadStatus s → 0x05#8 ∈ codes) : ReportsOnly codes (exec .frmDec s) := by
  rw [exec_frmDec s _ rfl]
  refine reportsOnly_guard (fun _ => others _ (by simp)) fun large => ?_
  refine reportsOnly_guard (fun _ => others _ (by simp)) fun short => ?_
  refine reportsOnly_guard (fun _ => others _ (by simp)) fun header => ?_
  refine reportsOnly_guard
    (fun bad => status ⟨Nat.le_of_not_lt short, Nat.le_of_not_lt large, not_not.mp header, bad⟩) fun _ => ?_
  refine reportsOnly_guard (fun _ => others _ (by simp)) fun _ => ?_
  refine reportsOnly_guard (fun _ => others _ (by simp)) fun _ => ?_
  exact reportsOnly_guard (fun _ => others _ (by simp)) fun _ => reportsOnly_done

theorem mayRaise_encOf (arr : Bool) (t : ScalarType) :
    mayRaise (encOf arr t) = if t = .f64 then [0x06#8, 0x07#8, 0x0A#8] else [0x06#8, 0x07#8, 0x09#8, 0x0A#8] := by
  cases t <;> rfl

theorem mayRaise_decOf (arr : Bool) (t : ScalarType) : mayRaise (decOf arr t) = [0x06#8, 0x0A#8] := by cases t <;> rfl

theorem mayRaise_reserved {i : Instr} (h : ReservedTag i) : mayRaise i = [0x08#8] := by cases h <;> rfl

/-- Every `VAL.ENC` may raise these; only `ValueRange` depends on the type. -/
theorem mem_mayRaise_encOf (arr : Bool) (t : ScalarType) :
    ∀ code ∈ [0x06#8, 0x07#8, 0x0A#8], code ∈ mayRaise (encOf arr t) := by
  rw [mayRaise_encOf]
  split <;> decide

/-- Every container is canonical for `F64` (R201). -/
theorem valueRange_mem_mayRaise {arr : Bool} {t : ScalarType} {v : Cells 64} {n : Nat}
    (bad : (!allCanonical t v (min n 252)) = true) : 0x09#8 ∈ mayRaise (encOf arr t) := by
  have narrow : t ≠ .f64 := by
    rintro rfl
    rw [allCanonical_min_iff.mpr fun _ _ _ => show fits _ .f64 from trivial] at bad
    cases bad
  rw [mayRaise_encOf, if_neg narrow]
  decide

theorem valEnc_reportsOnly (t : ScalarType) (arr : Bool) (s : State) :
    ReportsOnly (mayRaise (encOf arr t)) (valEnc t arr s) := by
  have listed := mem_mayRaise_encOf arr t
  by_cases counted : ∃ n, counts t arr s.BLEN.toNat n ∧ s.VCNT.toNat = n
  · obtain ⟨n, count, given⟩ := counted
    rw [valEnc_of_count count given]
    exact reportsOnly_guard (fun _ => listed _ (by simp)) fun _ => reportsOnly_guard valueRange_mem_mayRaise fun _ =>
      reportsOnly_guard (fun _ => listed _ (by simp)) fun _ => reportsOnly_done
  · rw [valEnc_of_no_count counted]
    exact reportsOnly_raised (listed _ (by simp))

theorem valDec_reportsOnly (t : ScalarType) (arr : Bool) (s : State) :
    ReportsOnly [0x06#8, 0x0A#8] (valDec t arr s) := by
  by_cases counted : ∃ n, counts t arr s.BLEN.toNat n
  · obtain ⟨n, count⟩ := counted
    rw [valDec_of_count count]
    exact reportsOnly_guard (by simp) fun _ => reportsOnly_done
  · rw [valDec_of_no_count counted]
    exact reportsOnly_raised (by simp)

theorem exec_reportsOnly (i : Instr) (s : State) : ReportsOnly (mayRaise i) (exec i s) := by
  induction i using Instr.byMeaning with
  | nop | rst | crcClr | crcUpd | crcCmp | hdrPack => exact reportsOnly_done
  | crcCalc b => exact crcCalc_reportsOnly b s
  | crcCheck b => exact crcCheck_reportsOnly b s
  | hdrUnpack => exact hdrUnpack_reportsOnly s
  | datPack => exact datPack_reportsOnly s
  | datUnpack => exact datUnpack_reportsOnly s
  | frmEnc => exact frmEnc_reportsOnly s
  | frmDec => exact frmDec_reportsOnly (by decide) fun _ => by decide
  | valEnc t arr => rw [exec_encOf]; exact valEnc_reportsOnly t arr s
  | valDec t arr => rw [exec_decOf, mayRaise_decOf]; exact valDec_reportsOnly t arr s
  | reserved i h => rw [exec_reserved h, mayRaise_reserved h]; exact reportsOnly_raised (List.mem_singleton_self _)

/-- Only `DeviceStatus` comes with detail (R271). -/
theorem exec_EINFO_eq_zero {i : Instr} {s t : State} (h : exec i s = .next t) (other : t.ERR ≠ 0x05#8) :
    t.EINFO = 0x00#8 := by
  obtain ⟨e, info, report, rfl⟩ | ⟨w, -, rfl⟩ := exec_next h
  · have undetailed : e ≠ .deviceStatus := by rintro rfl; exact other rfl
    rwa [Reportable, if_neg undetailed] at report
  · rfl

/-- Settles O40, with the codes of each command's checks, and the detail of every report. -/
theorem commandsReportOnlyTheirListedErrors : Obligations.CommandsReportOnlyTheirListedErrors :=
  fun i s t h => ⟨exec_reportsOnly i s t h, exec_EINFO_eq_zero h⟩

/-! ### `DeviceStatus` (R276) -/

theorem exec_frmDec_of_badStatus {s : State} (h : BadStatus s) :
    exec .frmDec s = raised s 0x05#8 (Memory.read s.FB 0) := by
  obtain ⟨full, large, header, bad⟩ := h
  rw [exec_frmDec s _ rfl, if_neg large.not_gt, if_neg full.not_gt, if_neg (not_not_intro header), if_pos bad]

/-- A command whose codes do not include `DeviceStatus` answers a state that does not report it. -/
theorem exists_next_of_reportsOnly {codes : List Byte} {i : Instr} {s : State} (h : ReportsOnly codes (exec i s))
    (unlisted : 0x05#8 ∉ codes) : ∃ t, exec i s = .next t ∧ t.ERR ≠ 0x05#8 := by
  obtain ⟨t, ht⟩ := (exec_ends i s).exists_next
  refine ⟨t, ht, fun status => ?_⟩
  obtain clear | listed := h t ht
  · exact absurd (status.symm.trans clear) (by decide)
  · exact unlisted (status ▸ listed)

/-- Settles O30: with a bad status the first three checks of `FRM.DEC` pass and the fourth reports it; without one no
check of `FRM.DEC` does, and `HDR.UNPACK` has no such check. -/
theorem deviceStatusReportsTheStateByte : Obligations.DeviceStatusReportsTheStateByte := by
  refine fun s => ⟨?_, exists_next_of_reportsOnly (hdrUnpack_reportsOnly s) (by decide)⟩
  by_cases bad : BadStatus s
  · exact ⟨_, exec_frmDec_of_badStatus bad, iff_of_true rfl bad, fun _ => rfl⟩
  · obtain ⟨t, ht, ne⟩ :=
      exists_next_of_reportsOnly (frmDec_reportsOnly (fun _ => id) fun h => absurd h bad) (by decide)
    exact ⟨t, ht, iff_of_false ne bad, fun status => absurd status ne⟩

end Sys2Proof.Machine
end

section
/-! The statement about the hardware reset (70_reset_and_hazards.md R310): its step is that of `RST`. -/

namespace Sys2Proof.Machine

/-- The hardware reset, served as an access, has the outcome of the command `RST` (log 8). -/
theorem step_hwReset {s : State} {rest : List Access} (hp : s.pending = .hwReset :: rest) :
    step s = exec .rst { s with pending := rest } :=
  calc step s = .next (serveAccess .hwReset { s with pending := rest }) := step_access hp rfl
    _ = .next (State.clear { s with pending := rest }) := rfl
    _ = exec .rst { s with pending := rest } := (exec_rst _).symm

/-- Settles O12: the step is that of `RST`, and what `RST` leaves is known. -/
theorem hardwareResetZeroesTheBlock : Obligations.HardwareResetZeroesTheBlock := by
  intro s rest hp
  obtain ⟨-, rstZeroes⟩ := rstZeroesTheBlock
  obtain ⟨t, ran, zeroed⟩ := rstZeroes { s with pending := rest }
  exact ⟨t, (step_hwReset hp).trans ran, ran, zeroed⟩

end Sys2Proof.Machine
end
